-- ==== Sys2Proof/Word.lean ====
section
/-! DEFINITION. The two word sizes of the hardware (spec/00_scope.md R9, R11): the 8-bit byte of
the registers, the ALU and the bus, and the 16-bit word of PC and of an address. -/

namespace Sys2Proof

/-- `u8`: a register, a bus datum, an ALU value (R9, R11). -/
abbrev Byte := BitVec 8

/-- `u16`: the program counter and every bus address (R9, R11). -/
abbrev Word := BitVec 16

end Sys2Proof
end

