-- ==== Sys2Proof/Syntax.lean ====
section
/-! DEFINITION. The instructions as terms: one constructor of `Instr` for each of the 104 rows of
spec/opcode_table.json (spec/30_encoding.md R65, R66), a mnemonic and an addressing mode, with the
operand the mode fetches (R60, R61). -/

namespace Sys2Proof

/-- The 40 mnemonics of the admitted set (spec/30_encoding.md R66). -/
inductive Mnemonic where
  | lda | ldx | ldy | sta | stx | sty | tax | tay
  | txa | tya | tsx | txs | adc | and | ora | eor
  | asl | bit | inc | dec | inx | iny | dex | dey
  | sec | clc | sed | cld | sei | cli | clv | bcc
  | bcs | beq | bne | bmi | bpl | bvc | bvs | brk
deriving DecidableEq, Repr

/-- The twelve formats of an instruction: the eleven addressing modes and Implied
(spec/30_encoding.md R60, spec/40_addressing_modes.md R81-R92). -/
inductive Mode where
  | implied | accumulator | immediate | zeroPage | zeroPageX | zeroPageY | absolute | absoluteX
  | absoluteY | indirectX | indirectY | relative
deriving DecidableEq, Repr

/-- An addressing mode together with the operand bytes it has fetched: a byte for the two-byte
forms, the word high:low for the absolute forms (R60, R61, R63). -/
inductive Operand where
  /-- Implied (R92). -/
  | implied
  /-- Accumulator (R90). -/
  | accumulator
  /-- Immediate, imm8 (R81). -/
  | immediate (v : Byte)
  /-- Zero Page, zp8 (R82). -/
  | zeroPage (b : Byte)
  /-- Zero Page,X, zp8 (R83). -/
  | zeroPageX (b : Byte)
  /-- Zero Page,Y, zp8 (R84). -/
  | zeroPageY (b : Byte)
  /-- Absolute, the word hi:lo (R85). -/
  | absolute (addr : Word)
  /-- Absolute,X, the base hi:lo (R86). -/
  | absoluteX (addr : Word)
  /-- Absolute,Y, the base hi:lo (R87). -/
  | absoluteY (addr : Word)
  /-- (Indirect,X), zp8 (R88). -/
  | indirectX (b : Byte)
  /-- (Indirect),Y, zp8 (R89). -/
  | indirectY (b : Byte)
  /-- Relative, disp8 (R91). -/
  | relative (d : Byte)
deriving DecidableEq, Repr

/-- The mode of an operand. -/
def Operand.mode : Operand → Mode
  | .implied => .implied
  | .accumulator => .accumulator
  | .immediate _ => .immediate
  | .zeroPage _ => .zeroPage
  | .zeroPageX _ => .zeroPageX
  | .zeroPageY _ => .zeroPageY
  | .absolute _ => .absolute
  | .absoluteX _ => .absoluteX
  | .absoluteY _ => .absoluteY
  | .indirectX _ => .indirectX
  | .indirectY _ => .indirectY
  | .relative _ => .relative

/-- The instructions (R65, R66). A name is the mnemonic and the mode: Imm is Immediate, Zp, ZpX, ZpY
Zero Page plain and indexed, Abs, AbsX, AbsY Absolute plain and indexed, IndX (Indirect,X), IndY
(Indirect),Y, Acc Accumulator; Implied and Relative carry no suffix. -/
inductive Instr where
  | ldaImm (v : Byte)
  | ldaZp (b : Byte)
  | ldaZpX (b : Byte)
  | ldaAbs (addr : Word)
  | ldaAbsX (addr : Word)
  | ldaAbsY (addr : Word)
  | ldaIndX (b : Byte)
  | ldaIndY (b : Byte)
  | ldxImm (v : Byte)
  | ldxZp (b : Byte)
  | ldxZpY (b : Byte)
  | ldxAbs (addr : Word)
  | ldxAbsY (addr : Word)
  | ldyImm (v : Byte)
  | ldyZp (b : Byte)
  | ldyZpX (b : Byte)
  | ldyAbs (addr : Word)
  | ldyAbsX (addr : Word)
  | staZp (b : Byte)
  | staZpX (b : Byte)
  | staAbs (addr : Word)
  | staAbsX (addr : Word)
  | staAbsY (addr : Word)
  | staIndX (b : Byte)
  | staIndY (b : Byte)
  | stxZp (b : Byte)
  | stxZpY (b : Byte)
  | stxAbs (addr : Word)
  | styZp (b : Byte)
  | styZpX (b : Byte)
  | styAbs (addr : Word)
  | tax
  | tay
  | txa
  | tya
  | tsx
  | txs
  | adcImm (v : Byte)
  | adcZp (b : Byte)
  | adcZpX (b : Byte)
  | adcAbs (addr : Word)
  | adcAbsX (addr : Word)
  | adcAbsY (addr : Word)
  | adcIndX (b : Byte)
  | adcIndY (b : Byte)
  | andImm (v : Byte)
  | andZp (b : Byte)
  | andZpX (b : Byte)
  | andAbs (addr : Word)
  | andAbsX (addr : Word)
  | andAbsY (addr : Word)
  | andIndX (b : Byte)
  | andIndY (b : Byte)
  | oraImm (v : Byte)
  | oraZp (b : Byte)
  | oraZpX (b : Byte)
  | oraAbs (addr : Word)
  | oraAbsX (addr : Word)
  | oraAbsY (addr : Word)
  | oraIndX (b : Byte)
  | oraIndY (b : Byte)
  | eorImm (v : Byte)
  | eorZp (b : Byte)
  | eorZpX (b : Byte)
  | eorAbs (addr : Word)
  | eorAbsX (addr : Word)
  | eorAbsY (addr : Word)
  | eorIndX (b : Byte)
  | eorIndY (b : Byte)
  | aslAcc
  | aslZp (b : Byte)
  | aslZpX (b : Byte)
  | aslAbs (addr : Word)
  | aslAbsX (addr : Word)
  | bitZp (b : Byte)
  | bitAbs (addr : Word)
  | incZp (b : Byte)
  | incZpX (b : Byte)
  | incAbs (addr : Word)
  | incAbsX (addr : Word)
  | decZp (b : Byte)
  | decZpX (b : Byte)
  | decAbs (addr : Word)
  | decAbsX (addr : Word)
  | inx
  | iny
  | dex
  | dey
  | sec
  | clc
  | sed
  | cld
  | sei
  | cli
  | clv
  | bcc (d : Byte)
  | bcs (d : Byte)
  | beq (d : Byte)
  | bne (d : Byte)
  | bmi (d : Byte)
  | bpl (d : Byte)
  | bvc (d : Byte)
  | bvs (d : Byte)
  | brk
deriving DecidableEq, Repr

/-- The mnemonic of an instruction, its row's "mnemonic" in spec/opcode_table.json (R66). -/
def Instr.mnemonic : Instr → Mnemonic
  | .ldaImm _ => .lda
  | .ldaZp _ => .lda
  | .ldaZpX _ => .lda
  | .ldaAbs _ => .lda
  | .ldaAbsX _ => .lda
  | .ldaAbsY _ => .lda
  | .ldaIndX _ => .lda
  | .ldaIndY _ => .lda
  | .ldxImm _ => .ldx
  | .ldxZp _ => .ldx
  | .ldxZpY _ => .ldx
  | .ldxAbs _ => .ldx
  | .ldxAbsY _ => .ldx
  | .ldyImm _ => .ldy
  | .ldyZp _ => .ldy
  | .ldyZpX _ => .ldy
  | .ldyAbs _ => .ldy
  | .ldyAbsX _ => .ldy
  | .staZp _ => .sta
  | .staZpX _ => .sta
  | .staAbs _ => .sta
  | .staAbsX _ => .sta
  | .staAbsY _ => .sta
  | .staIndX _ => .sta
  | .staIndY _ => .sta
  | .stxZp _ => .stx
  | .stxZpY _ => .stx
  | .stxAbs _ => .stx
  | .styZp _ => .sty
  | .styZpX _ => .sty
  | .styAbs _ => .sty
  | .tax => .tax
  | .tay => .tay
  | .txa => .txa
  | .tya => .tya
  | .tsx => .tsx
  | .txs => .txs
  | .adcImm _ => .adc
  | .adcZp _ => .adc
  | .adcZpX _ => .adc
  | .adcAbs _ => .adc
  | .adcAbsX _ => .adc
  | .adcAbsY _ => .adc
  | .adcIndX _ => .adc
  | .adcIndY _ => .adc
  | .andImm _ => .and
  | .andZp _ => .and
  | .andZpX _ => .and
  | .andAbs _ => .and
  | .andAbsX _ => .and
  | .andAbsY _ => .and
  | .andIndX _ => .and
  | .andIndY _ => .and
  | .oraImm _ => .ora
  | .oraZp _ => .ora
  | .oraZpX _ => .ora
  | .oraAbs _ => .ora
  | .oraAbsX _ => .ora
  | .oraAbsY _ => .ora
  | .oraIndX _ => .ora
  | .oraIndY _ => .ora
  | .eorImm _ => .eor
  | .eorZp _ => .eor
  | .eorZpX _ => .eor
  | .eorAbs _ => .eor
  | .eorAbsX _ => .eor
  | .eorAbsY _ => .eor
  | .eorIndX _ => .eor
  | .eorIndY _ => .eor
  | .aslAcc => .asl
  | .aslZp _ => .asl
  | .aslZpX _ => .asl
  | .aslAbs _ => .asl
  | .aslAbsX _ => .asl
  | .bitZp _ => .bit
  | .bitAbs _ => .bit
  | .incZp _ => .inc
  | .incZpX _ => .inc
  | .incAbs _ => .inc
  | .incAbsX _ => .inc
  | .decZp _ => .dec
  | .decZpX _ => .dec
  | .decAbs _ => .dec
  | .decAbsX _ => .dec
  | .inx => .inx
  | .iny => .iny
  | .dex => .dex
  | .dey => .dey
  | .sec => .sec
  | .clc => .clc
  | .sed => .sed
  | .cld => .cld
  | .sei => .sei
  | .cli => .cli
  | .clv => .clv
  | .bcc _ => .bcc
  | .bcs _ => .bcs
  | .beq _ => .beq
  | .bne _ => .bne
  | .bmi _ => .bmi
  | .bpl _ => .bpl
  | .bvc _ => .bvc
  | .bvs _ => .bvs
  | .brk => .brk

/-- The operand of an instruction: its row's addressing mode with the operand bytes (R66, R95). -/
def Instr.operand : Instr → Operand
  | .ldaImm v => .immediate v
  | .ldaZp b => .zeroPage b
  | .ldaZpX b => .zeroPageX b
  | .ldaAbs addr => .absolute addr
  | .ldaAbsX addr => .absoluteX addr
  | .ldaAbsY addr => .absoluteY addr
  | .ldaIndX b => .indirectX b
  | .ldaIndY b => .indirectY b
  | .ldxImm v => .immediate v
  | .ldxZp b => .zeroPage b
  | .ldxZpY b => .zeroPageY b
  | .ldxAbs addr => .absolute addr
  | .ldxAbsY addr => .absoluteY addr
  | .ldyImm v => .immediate v
  | .ldyZp b => .zeroPage b
  | .ldyZpX b => .zeroPageX b
  | .ldyAbs addr => .absolute addr
  | .ldyAbsX addr => .absoluteX addr
  | .staZp b => .zeroPage b
  | .staZpX b => .zeroPageX b
  | .staAbs addr => .absolute addr
  | .staAbsX addr => .absoluteX addr
  | .staAbsY addr => .absoluteY addr
  | .staIndX b => .indirectX b
  | .staIndY b => .indirectY b
  | .stxZp b => .zeroPage b
  | .stxZpY b => .zeroPageY b
  | .stxAbs addr => .absolute addr
  | .styZp b => .zeroPage b
  | .styZpX b => .zeroPageX b
  | .styAbs addr => .absolute addr
  | .tax => .implied
  | .tay => .implied
  | .txa => .implied
  | .tya => .implied
  | .tsx => .implied
  | .txs => .implied
  | .adcImm v => .immediate v
  | .adcZp b => .zeroPage b
  | .adcZpX b => .zeroPageX b
  | .adcAbs addr => .absolute addr
  | .adcAbsX addr => .absoluteX addr
  | .adcAbsY addr => .absoluteY addr
  | .adcIndX b => .indirectX b
  | .adcIndY b => .indirectY b
  | .andImm v => .immediate v
  | .andZp b => .zeroPage b
  | .andZpX b => .zeroPageX b
  | .andAbs addr => .absolute addr
  | .andAbsX addr => .absoluteX addr
  | .andAbsY addr => .absoluteY addr
  | .andIndX b => .indirectX b
  | .andIndY b => .indirectY b
  | .oraImm v => .immediate v
  | .oraZp b => .zeroPage b
  | .oraZpX b => .zeroPageX b
  | .oraAbs addr => .absolute addr
  | .oraAbsX addr => .absoluteX addr
  | .oraAbsY addr => .absoluteY addr
  | .oraIndX b => .indirectX b
  | .oraIndY b => .indirectY b
  | .eorImm v => .immediate v
  | .eorZp b => .zeroPage b
  | .eorZpX b => .zeroPageX b
  | .eorAbs addr => .absolute addr
  | .eorAbsX addr => .absoluteX addr
  | .eorAbsY addr => .absoluteY addr
  | .eorIndX b => .indirectX b
  | .eorIndY b => .indirectY b
  | .aslAcc => .accumulator
  | .aslZp b => .zeroPage b
  | .aslZpX b => .zeroPageX b
  | .aslAbs addr => .absolute addr
  | .aslAbsX addr => .absoluteX addr
  | .bitZp b => .zeroPage b
  | .bitAbs addr => .absolute addr
  | .incZp b => .zeroPage b
  | .incZpX b => .zeroPageX b
  | .incAbs addr => .absolute addr
  | .incAbsX addr => .absoluteX addr
  | .decZp b => .zeroPage b
  | .decZpX b => .zeroPageX b
  | .decAbs addr => .absolute addr
  | .decAbsX addr => .absoluteX addr
  | .inx => .implied
  | .iny => .implied
  | .dex => .implied
  | .dey => .implied
  | .sec => .implied
  | .clc => .implied
  | .sed => .implied
  | .cld => .implied
  | .sei => .implied
  | .cli => .implied
  | .clv => .implied
  | .bcc d => .relative d
  | .bcs d => .relative d
  | .beq d => .relative d
  | .bne d => .relative d
  | .bmi d => .relative d
  | .bpl d => .relative d
  | .bvc d => .relative d
  | .bvs d => .relative d
  | .brk => .implied

/-- The addressing mode of an instruction (R65, R95). -/
def Instr.mode (i : Instr) : Mode := i.operand.mode

end Sys2Proof
end

