-- ==== Sys2Proof/Decode.lean ====
section
/-! DEFINITION. Instruction encoding (spec/30_encoding.md R60, R61, R63, R65-R69): the opcode map as
a total function on the opcode byte, the decoder from a byte stream, and the encoder, written from
the per-mnemonic list of R66 where the decoder is written from the rows of spec/opcode_table.json. -/

namespace Sys2Proof

/-- `hi:lo`, the 16-bit value hi * 256 + lo (R11, R44: little-endian). -/
def wordOfBytes (lo hi : Byte) : Word := hi ++ lo

/-- The low byte of a word, stored at the lower address (R44). -/
def loByte (w : Word) : Byte := w.extractLsb' 0 8

/-- The high byte of a word, stored at the higher address (R44). -/
def hiByte (w : Word) : Byte := w.extractLsb' 8 8

/-- The number of operand bytes a mode fetches after the opcode (R60). -/
def Mode.operandBytes : Mode → Nat
  | .implied | .accumulator => 0
  | .immediate | .zeroPage | .zeroPageX | .zeroPageY | .indirectX | .indirectY | .relative => 1
  | .absolute | .absoluteX | .absoluteY => 2

/-- The length in bytes of an instruction of a mode (R60, R69). -/
def Mode.length (md : Mode) : Nat := 1 + md.operandBytes

/-- The length in bytes of an instruction (R60). -/
def Instr.length (i : Instr) : Nat := i.mode.length

/-- What an opcode byte selects: a finished instruction, or one that waits for its operand byte or
operand word (R60, R69). -/
inductive Shape where
  /-- Implied and Accumulator: no operand byte. -/
  | noOperand (i : Instr)
  /-- One operand byte: imm8, zp8 or disp8. -/
  | byteOperand (f : Byte → Instr)
  /-- Two operand bytes, low then high, assembled into a word (R63). -/
  | wordOperand (f : Word → Instr)

/-- The instruction a shape gives with an operand of zero: its mnemonic and mode are those of every
instruction of the shape. -/
def Shape.sample : Shape → Instr
  | .noOperand i => i
  | .byteOperand f => f 0
  | .wordOperand f => f 0

/-- The decode table (R65): the opcode's handler, or `none` for the 152 bytes of R67. Dispatch is a
lookup of the whole byte (R61). -/
def decodeTable (op : Byte) : Option Shape :=
  match op with
  | 0x00#8 => some (.noOperand .brk)
  | 0x01#8 => some (.byteOperand .oraIndX)
  | 0x05#8 => some (.byteOperand .oraZp)
  | 0x06#8 => some (.byteOperand .aslZp)
  | 0x09#8 => some (.byteOperand .oraImm)
  | 0x0A#8 => some (.noOperand .aslAcc)
  | 0x0D#8 => some (.wordOperand .oraAbs)
  | 0x0E#8 => some (.wordOperand .aslAbs)
  | 0x10#8 => some (.byteOperand .bpl)
  | 0x11#8 => some (.byteOperand .oraIndY)
  | 0x15#8 => some (.byteOperand .oraZpX)
  | 0x16#8 => some (.byteOperand .aslZpX)
  | 0x18#8 => some (.noOperand .clc)
  | 0x19#8 => some (.wordOperand .oraAbsY)
  | 0x1D#8 => some (.wordOperand .oraAbsX)
  | 0x1E#8 => some (.wordOperand .aslAbsX)
  | 0x21#8 => some (.byteOperand .andIndX)
  | 0x24#8 => some (.byteOperand .bitZp)
  | 0x25#8 => some (.byteOperand .andZp)
  | 0x29#8 => some (.byteOperand .andImm)
  | 0x2C#8 => some (.wordOperand .bitAbs)
  | 0x2D#8 => some (.wordOperand .andAbs)
  | 0x30#8 => some (.byteOperand .bmi)
  | 0x31#8 => some (.byteOperand .andIndY)
  | 0x35#8 => some (.byteOperand .andZpX)
  | 0x38#8 => some (.noOperand .sec)
  | 0x39#8 => some (.wordOperand .andAbsY)
  | 0x3D#8 => some (.wordOperand .andAbsX)
  | 0x41#8 => some (.byteOperand .eorIndX)
  | 0x45#8 => some (.byteOperand .eorZp)
  | 0x49#8 => some (.byteOperand .eorImm)
  | 0x4D#8 => some (.wordOperand .eorAbs)
  | 0x50#8 => some (.byteOperand .bvc)
  | 0x51#8 => some (.byteOperand .eorIndY)
  | 0x55#8 => some (.byteOperand .eorZpX)
  | 0x58#8 => some (.noOperand .cli)
  | 0x59#8 => some (.wordOperand .eorAbsY)
  | 0x5D#8 => some (.wordOperand .eorAbsX)
  | 0x61#8 => some (.byteOperand .adcIndX)
  | 0x65#8 => some (.byteOperand .adcZp)
  | 0x69#8 => some (.byteOperand .adcImm)
  | 0x6D#8 => some (.wordOperand .adcAbs)
  | 0x70#8 => some (.byteOperand .bvs)
  | 0x71#8 => some (.byteOperand .adcIndY)
  | 0x75#8 => some (.byteOperand .adcZpX)
  | 0x78#8 => some (.noOperand .sei)
  | 0x79#8 => some (.wordOperand .adcAbsY)
  | 0x7D#8 => some (.wordOperand .adcAbsX)
  | 0x81#8 => some (.byteOperand .staIndX)
  | 0x84#8 => some (.byteOperand .styZp)
  | 0x85#8 => some (.byteOperand .staZp)
  | 0x86#8 => some (.byteOperand .stxZp)
  | 0x88#8 => some (.noOperand .dey)
  | 0x8A#8 => some (.noOperand .txa)
  | 0x8C#8 => some (.wordOperand .styAbs)
  | 0x8D#8 => some (.wordOperand .staAbs)
  | 0x8E#8 => some (.wordOperand .stxAbs)
  | 0x90#8 => some (.byteOperand .bcc)
  | 0x91#8 => some (.byteOperand .staIndY)
  | 0x94#8 => some (.byteOperand .styZpX)
  | 0x95#8 => some (.byteOperand .staZpX)
  | 0x96#8 => some (.byteOperand .stxZpY)
  | 0x98#8 => some (.noOperand .tya)
  | 0x99#8 => some (.wordOperand .staAbsY)
  | 0x9A#8 => some (.noOperand .txs)
  | 0x9D#8 => some (.wordOperand .staAbsX)
  | 0xA0#8 => some (.byteOperand .ldyImm)
  | 0xA1#8 => some (.byteOperand .ldaIndX)
  | 0xA2#8 => some (.byteOperand .ldxImm)
  | 0xA4#8 => some (.byteOperand .ldyZp)
  | 0xA5#8 => some (.byteOperand .ldaZp)
  | 0xA6#8 => some (.byteOperand .ldxZp)
  | 0xA8#8 => some (.noOperand .tay)
  | 0xA9#8 => some (.byteOperand .ldaImm)
  | 0xAA#8 => some (.noOperand .tax)
  | 0xAC#8 => some (.wordOperand .ldyAbs)
  | 0xAD#8 => some (.wordOperand .ldaAbs)
  | 0xAE#8 => some (.wordOperand .ldxAbs)
  | 0xB0#8 => some (.byteOperand .bcs)
  | 0xB1#8 => some (.byteOperand .ldaIndY)
  | 0xB4#8 => some (.byteOperand .ldyZpX)
  | 0xB5#8 => some (.byteOperand .ldaZpX)
  | 0xB6#8 => some (.byteOperand .ldxZpY)
  | 0xB8#8 => some (.noOperand .clv)
  | 0xB9#8 => some (.wordOperand .ldaAbsY)
  | 0xBA#8 => some (.noOperand .tsx)
  | 0xBC#8 => some (.wordOperand .ldyAbsX)
  | 0xBD#8 => some (.wordOperand .ldaAbsX)
  | 0xBE#8 => some (.wordOperand .ldxAbsY)
  | 0xC6#8 => some (.byteOperand .decZp)
  | 0xC8#8 => some (.noOperand .iny)
  | 0xCA#8 => some (.noOperand .dex)
  | 0xCE#8 => some (.wordOperand .decAbs)
  | 0xD0#8 => some (.byteOperand .bne)
  | 0xD6#8 => some (.byteOperand .decZpX)
  | 0xD8#8 => some (.noOperand .cld)
  | 0xDE#8 => some (.wordOperand .decAbsX)
  | 0xE6#8 => some (.byteOperand .incZp)
  | 0xE8#8 => some (.noOperand .inx)
  | 0xEE#8 => some (.wordOperand .incAbs)
  | 0xF0#8 => some (.byteOperand .beq)
  | 0xF6#8 => some (.byteOperand .incZpX)
  | 0xF8#8 => some (.noOperand .sed)
  | 0xFE#8 => some (.wordOperand .incAbsX)
  | _ => none

/-- Why a byte stream decodes to no instruction. -/
inductive DecodeError where
  /-- No byte at all. -/
  | noBytes
  /-- An opcode byte without a handler (R67). -/
  | unknownOpcode (op : Byte)
  /-- The stream ends before the operand bytes the opcode calls for (R60). -/
  | missingOperand (op : Byte)
deriving DecidableEq, Repr

/-- Decode the instruction at the head of a byte stream and give the rest of the stream (R60, R61,
R63, R65, R69). An unknown opcode is refused before any operand byte is looked at (R201). -/
def decode : List Byte → Except DecodeError (Instr × List Byte)
  | [] => .error .noBytes
  | op :: rest =>
    match decodeTable op, rest with
    | none, _ => .error (.unknownOpcode op)
    | some (.noOperand i), _ => .ok (i, rest)
    | some (.byteOperand f), b :: rest' => .ok (f b, rest')
    | some (.wordOperand f), lo :: hi :: rest' => .ok (f (wordOfBytes lo hi), rest')
    | some (.byteOperand _), [] => .error (.missingOperand op)
    | some (.wordOperand _), _ => .error (.missingOperand op)

/-- The opcode byte of an instruction, from the per-mnemonic list of R66. -/
def Instr.opcode : Instr → Byte
  | .ldaImm _ => 0xA9
  | .ldaZp _ => 0xA5
  | .ldaZpX _ => 0xB5
  | .ldaAbs _ => 0xAD
  | .ldaAbsX _ => 0xBD
  | .ldaAbsY _ => 0xB9
  | .ldaIndX _ => 0xA1
  | .ldaIndY _ => 0xB1
  | .ldxImm _ => 0xA2
  | .ldxZp _ => 0xA6
  | .ldxZpY _ => 0xB6
  | .ldxAbs _ => 0xAE
  | .ldxAbsY _ => 0xBE
  | .ldyImm _ => 0xA0
  | .ldyZp _ => 0xA4
  | .ldyZpX _ => 0xB4
  | .ldyAbs _ => 0xAC
  | .ldyAbsX _ => 0xBC
  | .staZp _ => 0x85
  | .staZpX _ => 0x95
  | .staAbs _ => 0x8D
  | .staAbsX _ => 0x9D
  | .staAbsY _ => 0x99
  | .staIndX _ => 0x81
  | .staIndY _ => 0x91
  | .stxZp _ => 0x86
  | .stxZpY _ => 0x96
  | .stxAbs _ => 0x8E
  | .styZp _ => 0x84
  | .styZpX _ => 0x94
  | .styAbs _ => 0x8C
  | .tax => 0xAA
  | .tay => 0xA8
  | .txa => 0x8A
  | .tya => 0x98
  | .tsx => 0xBA
  | .txs => 0x9A
  | .adcImm _ => 0x69
  | .adcZp _ => 0x65
  | .adcZpX _ => 0x75
  | .adcAbs _ => 0x6D
  | .adcAbsX _ => 0x7D
  | .adcAbsY _ => 0x79
  | .adcIndX _ => 0x61
  | .adcIndY _ => 0x71
  | .andImm _ => 0x29
  | .andZp _ => 0x25
  | .andZpX _ => 0x35
  | .andAbs _ => 0x2D
  | .andAbsX _ => 0x3D
  | .andAbsY _ => 0x39
  | .andIndX _ => 0x21
  | .andIndY _ => 0x31
  | .oraImm _ => 0x09
  | .oraZp _ => 0x05
  | .oraZpX _ => 0x15
  | .oraAbs _ => 0x0D
  | .oraAbsX _ => 0x1D
  | .oraAbsY _ => 0x19
  | .oraIndX _ => 0x01
  | .oraIndY _ => 0x11
  | .eorImm _ => 0x49
  | .eorZp _ => 0x45
  | .eorZpX _ => 0x55
  | .eorAbs _ => 0x4D
  | .eorAbsX _ => 0x5D
  | .eorAbsY _ => 0x59
  | .eorIndX _ => 0x41
  | .eorIndY _ => 0x51
  | .aslAcc => 0x0A
  | .aslZp _ => 0x06
  | .aslZpX _ => 0x16
  | .aslAbs _ => 0x0E
  | .aslAbsX _ => 0x1E
  | .bitZp _ => 0x24
  | .bitAbs _ => 0x2C
  | .incZp _ => 0xE6
  | .incZpX _ => 0xF6
  | .incAbs _ => 0xEE
  | .incAbsX _ => 0xFE
  | .decZp _ => 0xC6
  | .decZpX _ => 0xD6
  | .decAbs _ => 0xCE
  | .decAbsX _ => 0xDE
  | .inx => 0xE8
  | .iny => 0xC8
  | .dex => 0xCA
  | .dey => 0x88
  | .sec => 0x38
  | .clc => 0x18
  | .sed => 0xF8
  | .cld => 0xD8
  | .sei => 0x78
  | .cli => 0x58
  | .clv => 0xB8
  | .bcc _ => 0x90
  | .bcs _ => 0xB0
  | .beq _ => 0xF0
  | .bne _ => 0xD0
  | .bmi _ => 0x30
  | .bpl _ => 0x10
  | .bvc _ => 0x50
  | .bvs _ => 0x70
  | .brk => 0x00

/-- The operand bytes of an operand, in the order they follow the opcode (R60, R61). -/
def Operand.bytes : Operand → List Byte
  | .implied | .accumulator => []
  | .immediate b | .zeroPage b | .zeroPageX b | .zeroPageY b | .indirectX b | .indirectY b
  | .relative b => [b]
  | .absolute w | .absoluteX w | .absoluteY w => [loByte w, hiByte w]

/-- The bytes of an instruction: the opcode, then its operand bytes (R60, R61). -/
def encode (i : Instr) : List Byte := i.opcode :: i.operand.bytes

/-- Opcode and mode of an instruction: one entry of R66's list. -/
def Instr.form (i : Instr) : Byte × Mode := (i.opcode, i.mode)

/-- The three bytes that an instruction word of spec/opcode_table.json lays in memory: bit 0 is the
least significant bit of the opcode byte, every bit from `nbits` up is 0, and three bytes are the
longest instruction (R60). -/
def tableBytes (nbits w : Nat) : List Byte :=
  let v := w % 2 ^ nbits
  [BitVec.ofNat 8 v, BitVec.ofNat 8 (v / 2 ^ 8), BitVec.ofNat 8 (v / 2 ^ 16)]

/-- The instruction the decoder reads from an opcode-table word. -/
def decodeTableWord (nbits w : Nat) : Option Instr :=
  match decode (tableBytes nbits w) with
  | .ok (i, _) => some i
  | .error _ => none

end Sys2Proof
end

