-- ==== Sys2Proof/Config.lean ====
section
/-! DEFINITION. What is fixed for the machine (spec/00_scope.md R9, spec/70_reset_and_hazards.md
R220). The spec leaves one parameter open, the initial memory image MEM0; here it is the memory a
state lists, and `unlistedByte` is what every other byte of it holds. No value of this hardware is
left undefined after an instruction, so Config holds no free value. -/

namespace Sys2Proof.Config

/-- The number of bytes of the one address space (R9, R40). -/
def memorySize : Nat := 65536

/-- Address of the low byte of the reset vector (R44, R49, R220). -/
def resetVectorLow : Word := 0xFFFC

/-- Address of the high byte of the reset vector (R44, R49, R220). -/
def resetVectorHigh : Word := 0xFFFD

/-- The value RESET gives to S (R25, R220). -/
def stackPointerReset : Byte := 0xFD

/-- What a byte reads as that the memory of a state does not list. DESIGN CHOICE (assumption 1,
unsafe): MEM0 is open (R9, D13), and D13 gives zero as the source's default for a byte the host did
not write. -/
def unlistedByte : Byte := 0x00

end Sys2Proof.Config
end

