-- ==== Sys2Proof/Machine/State.lean ====
section
/-! DEFINITION. The state of the machine as plain data (spec/10_state.md R20-R35, spec/20_memory.md
R40, R43), its faults and refusals, and the state right after reset (spec/70_reset_and_hazards.md
R220). -/

namespace Sys2Proof.Machine

/-- The eight status flags (R28). They have no byte layout: only their values are observable
(R32). -/
structure Flags where
  /-- N, negative. -/
  n : Bool
  /-- V, overflow. -/
  v : Bool
  /-- U, unused: 1 in every reachable state (R29). -/
  u : Bool
  /-- B, break: 0 in every reachable state (R30). -/
  b : Bool
  /-- D, decimal mode: stored, not acted upon (R31). -/
  d : Bool
  /-- I, interrupt disable: stored, not acted upon (R31). -/
  i : Bool
  /-- Z, zero. -/
  z : Bool
  /-- C, carry. -/
  c : Bool
deriving DecidableEq, Repr

/-- The hidden run state (R33). -/
inductive RunState where
  /-- Not reset since it was created: every register and flag is undefined (R224). -/
  | unreset
  /-- `STEP` executes an instruction. -/
  | running
  /-- A BRK has been executed (R179, R202). -/
  | halted
  /-- An unknown opcode was fetched; the payload is the fault record (R201). -/
  | faulted (opcode : Byte) (pc : Word)
deriving DecidableEq, Repr

/-- The memory contents: the bytes that differ from `Config.unlistedByte`, by strictly rising
address (R40, R43; the form is `Memory.wf`). -/
abbrev Memory := List Host.Cell

/-- The architectural state (R20) and the memory of the bus (R43). -/
structure State where
  /-- A, the accumulator (R22). -/
  a : Byte
  /-- X, index register (R23). -/
  x : Byte
  /-- Y, index register (R24). -/
  y : Byte
  /-- S, the stack pointer (R25). -/
  sp : Byte
  /-- PC, the address of the next byte to fetch (R26). -/
  pc : Word
  /-- N, V, U, B, D, I, Z, C (R28). -/
  flags : Flags
  /-- The run state (R33). -/
  run : RunState
  /-- M, the 65536 bytes of memory (R40, R43). -/
  mem : Memory
deriving DecidableEq, Repr

/-- How a command stops without a move. -/
inductive Fault where
  /-- Raised by `STEP` in run state Halted: the run has ended and there is no move (R206). Safe: the
  model allows nothing here. -/
  | haltedNoMove
  /-- Raised by `STEP` in run state Faulted(opcode, pc): the run has ended and there is no move
  (R206). Safe: the model allows nothing here. -/
  | faultedNoMove (opcode : Byte) (pc : Word)
deriving DecidableEq, Repr

/-- What the model gives no meaning. -/
inductive Refusal where
  /-- Raised by an arm of `exec` whose instruction has no meaning yet; no arm is one. Safe. -/
  | notModelled (mnemonic : String)
  /-- Raised by `STEP` before the first `RESET` (R224: "the model gives it no meaning"). Safe. -/
  | stepBeforeReset
  /-- Raised by the host command that writes memory, once `RESET` has been issued (R7, R8: "A host
  action the table does not list has no move"). Safe for claims about the hosts the spec admits. -/
  | hostWriteAfterReset
deriving DecidableEq, Repr

/-- What a step or a meaning answers. -/
abbrev Result := Host.Outcome State Fault Refusal

/-- The flags after reset: U is 1 and every other flag 0 (R220). -/
def Flags.reset : Flags :=
  { n := false, v := false, u := true, b := false, d := false, i := false, z := false, c := false }

/-- The machine right after reset (R220), over the memory that lists nothing. PC is then the reset
vector M[0xFFFD]:M[0xFFFC] of that memory, 0x0000 (assumption 1). -/
def State.reset : State :=
  { a := 0, x := 0, y := 0
    sp := Config.stackPointerReset
    pc := 0x0000
    flags := Flags.reset
    run := .running
    mem := [] }

end Sys2Proof.Machine
end

