-- ==== Sys2Proof/Machine/Ops.lean ====
section
/-! DEFINITION. The named operations on the machine: reading and writing a byte of memory
(spec/20_memory.md R40-R42), writing a register (spec/00_scope.md R12), raising one of the two
terminal conditions (spec/00_scope.md R14, spec/60_exceptions.md R201, R202, R205) and RESET, the
only way out of them (spec/70_reset_and_hazards.md R220, R223). -/

namespace Sys2Proof.Machine

/-- The byte at an address: the listed one, else `Config.unlistedByte` (R41, R51). -/
def Memory.read : Memory → Nat → Byte
  | [], _ => Config.unlistedByte
  | (k, v) :: rest, a => if k = a then v else Memory.read rest a

/-- The memory without an entry for an address. -/
def Memory.erase : Memory → Nat → Memory
  | [], _ => []
  | (k, v) :: rest, a => if k = a then Memory.erase rest a else (k, v) :: Memory.erase rest a

/-- An entry put before the first one of a higher address. -/
def Memory.insert : Memory → Nat → Byte → Memory
  | [], a, v => [(a, v)]
  | (k, x) :: rest, a, v =>
    if a < k then (a, v) :: (k, x) :: rest else (k, x) :: Memory.insert rest a v

/-- Store a byte (R42), keeping the canonical form: an entry equal to what an unlisted address reads
as is not listed. -/
def Memory.write (m : Memory) (a : Nat) (v : Byte) : Memory :=
  if v = Config.unlistedByte then m.erase a else (m.erase a).insert a v

/-- The canonical form from a least address on: strictly rising addresses inside the address space,
and no entry equal to `Config.unlistedByte`. -/
def Memory.wfFrom (least : Nat) : Memory → Bool
  | [] => true
  | (k, v) :: rest =>
    decide (least ≤ k) && decide (k < Config.memorySize) && (v != Config.unlistedByte) &&
      Memory.wfFrom (k + 1) rest

/-- The canonical form of a memory. -/
def Memory.wf (m : Memory) : Bool := m.wfFrom 0

/-- `MemRead(addr, 1)` (R13, R41): no side effect, cannot fail. -/
def State.readByte (s : State) (addr : Word) : Byte := s.mem.read addr.toNat

/-- `MemWrite(addr, 1, v)` (R13, R42): total and unconditional. -/
def State.writeByte (s : State) (addr : Word) (v : Byte) : State :=
  { s with mem := s.mem.write addr.toNat v }

/-- `A <- v` (R12). -/
def State.setA (s : State) (v : Byte) : State := { s with a := v }

/-- `X <- v` (R12). -/
def State.setX (s : State) (v : Byte) : State := { s with x := v }

/-- `Y <- v` (R12). -/
def State.setY (s : State) (v : Byte) : State := { s with y := v }

/-- `S <- v` (R12, R25). -/
def State.setSp (s : State) (v : Byte) : State := { s with sp := v }

/-- `PC <- target` (R12, R26). -/
def State.setPc (s : State) (target : Word) : State := { s with pc := target }

/-- Write the flags; what becomes of each is computed in Flags.lean. -/
def State.setFlags (s : State) (f : Flags) : State := { s with flags := f }

/-- Write the run state (R33). -/
def State.setRun (s : State) (r : RunState) : State := { s with run := r }

/-- The two conditions a step can raise (R14, R200, R203). -/
inductive Condition where
  /-- `Halt`, raised by BRK (R202). -/
  | halt
  /-- `Fatal(UnknownOpcode)`, with the record {opcode, pc} (R201). -/
  | unknownOpcode (opcode : Byte) (pc : Word)
deriving DecidableEq, Repr

/-- The terminal run state of a condition (R200). -/
def Condition.terminal : Condition → RunState
  | .halt => .halted
  | .unknownOpcode opcode pc => .faulted opcode pc

/-- Raise a condition (R14, R205): the block stops in the terminal run state. No state is saved,
no mode, mask or stack changes and control goes to no vector; PC keeps the increment of the opcode
fetch (R27). -/
def raise (c : Condition) (s : State) : Result := .next (s.setRun c.terminal)

/-- What a `STEP` answers in a run state other than Running: no move once the run has ended (R206),
and no meaning before the first reset (R224). -/
def State.noMove (s : State) : Option Result :=
  match s.run with
  | .running => none
  | .halted => some (.fault .haltedNoMove)
  | .faulted opcode pc => some (.fault (.faultedNoMove opcode pc))
  | .unreset => some (.refused .stepBeforeReset)

/-- The `RESET` action (R220), from any run state (R223): two bytes are read and no memory is
written. It is the only way out of a terminal run state (R206). -/
def State.resetAction (s : State) : State :=
  { a := 0, x := 0, y := 0
    sp := Config.stackPointerReset
    pc := wordOfBytes (s.readByte Config.resetVectorLow) (s.readByte Config.resetVectorHigh)
    flags := Flags.reset
    run := .running
    mem := s.mem }

/-- Lay bytes at increasing addresses, mod 65536 (R61). -/
def State.writeBytes (s : State) (addr : Word) : List Byte → State
  | [] => s
  | v :: rest => State.writeBytes (s.writeByte addr v) (addr + 1) rest

/-- Lay an instruction's bytes where the next step fetches, and let that step run (assumption 4). -/
def State.placeInstr (s : State) (bytes : List Byte) : State :=
  (s.writeBytes s.pc bytes).setRun .running

end Sys2Proof.Machine
end

