-- ==== Sys2Proof/Machine/Flags.lean ====
section
/-! DEFINITION. Every flag computation (spec/42_alu.md R130, R133, R137-R139) and the 8-bit ALU
results they go with (R131). -/

namespace Sys2Proof.Machine

/-- `setZN(v)` (R130): Z and N from the byte, U forced to 1, no other flag. -/
def Flags.setZN (f : Flags) (v : Byte) : Flags :=
  { f with z := v == 0, n := v.getLsbD 7, u := true }

/-- `setZN(v)` on the machine's flags (R130). -/
def State.setZN (s : State) (v : Byte) : State := s.setFlags (s.flags.setZN v)

/-- ADC's 9-bit intermediate `a0 + m + C`, exact (R133). -/
def adcSum (a m : Byte) (c : Bool) : Nat := a.toNat + m.toNat + c.toNat

/-- ADC's result, the intermediate mod 256 (R131, R133). -/
def adcResult (a m : Byte) (c : Bool) : Byte := BitVec.ofNat 8 (adcSum a m c)

/-- ADC's carry out, bit 8 of the intermediate (R133). -/
def adcCarry (a m : Byte) (c : Bool) : Bool := (adcSum a m c).testBit 8

/-- ADC's overflow, from the pre-update A, the operand and the result (R133). -/
def adcOverflow (a m r : Byte) : Bool := (~~~(a ^^^ m) &&& (a ^^^ r) &&& 0x80) != 0

/-- The flags ADC leaves: C, V, then setZN of the result; D is not read (R132, R133). -/
def Flags.adc (f : Flags) (a m : Byte) : Flags :=
  let r := adcResult a m f.c
  ({ f with c := adcCarry a m f.c, v := adcOverflow a m r }).setZN r

/-- ASL's result: a shift left by one mod 256, bit 0 becoming 0 (R137, R138). -/
def aslResult (v : Byte) : Byte := v <<< 1

/-- The flags ASL leaves: C is the old bit 7, then setZN of the result; V unchanged (R137, R138). -/
def Flags.asl (f : Flags) (v : Byte) : Flags :=
  ({ f with c := v.getLsbD 7 }).setZN (aslResult v)

/-- The flags BIT leaves: Z from the masked value, N and V from bits 7 and 6 of the operand; U is not
written (R139). -/
def Flags.bit (f : Flags) (a m : Byte) : Flags :=
  { f with z := (m &&& a) == 0, n := m.getLsbD 7, v := m.getLsbD 6 }

/-- Increment, wrapping mod 256 (R131, R140, R142, R143). -/
def incByte (v : Byte) : Byte := v + 1

/-- Decrement, `v + 255` mod 256 (R131, R141, R144, R145). -/
def decByte (v : Byte) : Byte := v + 255

end Sys2Proof.Machine
end

