-- ==== Sys2Proof/Machine/Operands.lean ====
section
/-! DEFINITION. The addressing-mode resolver (spec/40_addressing_modes.md R80-R93). It reads
registers, PC and the bus and writes nothing; the operand bytes have been fetched already, so PC is
the address of the next instruction (R80, R91). -/

namespace Sys2Proof.Machine

/-- `ReadPtrZP(p)` (R88): low byte at p, high byte at (p + 1) mod 256, both in page zero. -/
def State.readPointer (s : State) (p : Byte) : Word :=
  wordOfBytes (s.readByte (p.setWidth 16)) (s.readByte ((p + 1).setWidth 16))

/-- Zero Page (R82). -/
def eaZeroPage (b : Byte) : Word := b.setWidth 16

/-- Zero Page,X (R83): wraps within page zero. -/
def eaZeroPageX (b : Byte) (s : State) : Word := (b + s.x).setWidth 16

/-- Zero Page,Y (R84): wraps within page zero. -/
def eaZeroPageY (b : Byte) (s : State) : Word := (b + s.y).setWidth 16

/-- Absolute,X (R86): mod 65536. -/
def eaAbsoluteX (base : Word) (s : State) : Word := base + s.x.setWidth 16

/-- Absolute,Y (R87): mod 65536. -/
def eaAbsoluteY (base : Word) (s : State) : Word := base + s.y.setWidth 16

/-- (Indirect,X) (R88): the pointer at (b + X) mod 256. -/
def eaIndirectX (b : Byte) (s : State) : Word := s.readPointer (b + s.x)

/-- (Indirect),Y (R89): Y is added to the full 16-bit base after the pointer is read. -/
def eaIndirectY (p : Byte) (s : State) : Word := s.readPointer p + s.y.setWidth 16

/-- Relative (R91): the displacement, sign-extended, added to PC after the displacement byte. -/
def relativeTarget (d : Byte) (s : State) : Word := s.pc + d.signExtend 16

/-- What the resolver returns (R80). -/
inductive Resolved where
  /-- Immediate: the value itself. -/
  | imm (v : Byte)
  /-- A memory mode: the effective address. -/
  | mem (ea : Word)
  /-- Accumulator. -/
  | acc
  /-- Relative: the branch target. -/
  | target (t : Word)
  /-- Implied. -/
  | nothing
deriving DecidableEq, Repr

/-- `Resolve(mode)` (R80-R92). -/
def resolve (op : Operand) (s : State) : Resolved :=
  match op with
  | .implied => .nothing
  | .accumulator => .acc
  | .immediate v => .imm v
  | .zeroPage b => .mem (eaZeroPage b)
  | .zeroPageX b => .mem (eaZeroPageX b s)
  | .zeroPageY b => .mem (eaZeroPageY b s)
  | .absolute addr => .mem addr
  | .absoluteX addr => .mem (eaAbsoluteX addr s)
  | .absoluteY addr => .mem (eaAbsoluteY addr s)
  | .indirectX b => .mem (eaIndirectX b s)
  | .indirectY b => .mem (eaIndirectY b s)
  | .relative d => .target (relativeTarget d s)

/-- `Load(operand)` (R93); `none` for Target and None, on which Load "is never called". -/
def load (r : Resolved) (s : State) : Option Byte :=
  match r with
  | .imm v => some v
  | .mem ea => some (s.readByte ea)
  | .acc => some s.a
  | .target _ => none
  | .nothing => none

end Sys2Proof.Machine
end

