-- ==== Sys2Proof/Machine/Alu.lean ====
section
/-! DEFINITION. Addition, logic, shift, bit test, increment and decrement (spec/42_alu.md R133-R145). -/

namespace Sys2Proof.Machine

/-- Add an operand and the carry to A (R133); binary whatever D holds (R132). -/
def addA (m : Byte) (s : State) : Result :=
  .next ((s.setA (adcResult s.a m s.flags.c)).setFlags (s.flags.adc s.a m))

/-- ADC Immediate (R133, R81, opcode 69). -/
def execAdcImm (v : Byte) (s : State) : Result := addA v s

/-- ADC Zero Page (R133, R82, opcode 65). -/
def execAdcZp (b : Byte) (s : State) : Result := addA (s.readByte (eaZeroPage b)) s

/-- ADC Zero Page,X (R133, R83, opcode 75). -/
def execAdcZpX (b : Byte) (s : State) : Result := addA (s.readByte (eaZeroPageX b s)) s

/-- ADC Absolute (R133, R85, opcode 6D). -/
def execAdcAbs (addr : Word) (s : State) : Result := addA (s.readByte addr) s

/-- ADC Absolute,X (R133, R86, opcode 7D). -/
def execAdcAbsX (addr : Word) (s : State) : Result := addA (s.readByte (eaAbsoluteX addr s)) s

/-- ADC Absolute,Y (R133, R87, opcode 79). -/
def execAdcAbsY (addr : Word) (s : State) : Result := addA (s.readByte (eaAbsoluteY addr s)) s

/-- ADC (Indirect,X) (R133, R88, opcode 61). -/
def execAdcIndX (b : Byte) (s : State) : Result := addA (s.readByte (eaIndirectX b s)) s

/-- ADC (Indirect),Y (R133, R89, opcode 71). -/
def execAdcIndY (b : Byte) (s : State) : Result := addA (s.readByte (eaIndirectY b s)) s

/-- `A <- A & m; setZN(A)` (R134). -/
def andA (m : Byte) (s : State) : Result := .next ((s.setA (s.a &&& m)).setZN (s.a &&& m))

/-- AND Immediate (R134, R81, opcode 29). -/
def execAndImm (v : Byte) (s : State) : Result := andA v s

/-- AND Zero Page (R134, R82, opcode 25). -/
def execAndZp (b : Byte) (s : State) : Result := andA (s.readByte (eaZeroPage b)) s

/-- AND Zero Page,X (R134, R83, opcode 35). -/
def execAndZpX (b : Byte) (s : State) : Result := andA (s.readByte (eaZeroPageX b s)) s

/-- AND Absolute (R134, R85, opcode 2D). -/
def execAndAbs (addr : Word) (s : State) : Result := andA (s.readByte addr) s

/-- AND Absolute,X (R134, R86, opcode 3D). -/
def execAndAbsX (addr : Word) (s : State) : Result := andA (s.readByte (eaAbsoluteX addr s)) s

/-- AND Absolute,Y (R134, R87, opcode 39). -/
def execAndAbsY (addr : Word) (s : State) : Result := andA (s.readByte (eaAbsoluteY addr s)) s

/-- AND (Indirect,X) (R134, R88, opcode 21). -/
def execAndIndX (b : Byte) (s : State) : Result := andA (s.readByte (eaIndirectX b s)) s

/-- AND (Indirect),Y (R134, R89, opcode 31). -/
def execAndIndY (b : Byte) (s : State) : Result := andA (s.readByte (eaIndirectY b s)) s

/-- `A <- A | m; setZN(A)` (R135). -/
def orA (m : Byte) (s : State) : Result := .next ((s.setA (s.a ||| m)).setZN (s.a ||| m))

/-- ORA Immediate (R135, R81, opcode 09). -/
def execOraImm (v : Byte) (s : State) : Result := orA v s

/-- ORA Zero Page (R135, R82, opcode 05). -/
def execOraZp (b : Byte) (s : State) : Result := orA (s.readByte (eaZeroPage b)) s

/-- ORA Zero Page,X (R135, R83, opcode 15). -/
def execOraZpX (b : Byte) (s : State) : Result := orA (s.readByte (eaZeroPageX b s)) s

/-- ORA Absolute (R135, R85, opcode 0D). -/
def execOraAbs (addr : Word) (s : State) : Result := orA (s.readByte addr) s

/-- ORA Absolute,X (R135, R86, opcode 1D). -/
def execOraAbsX (addr : Word) (s : State) : Result := orA (s.readByte (eaAbsoluteX addr s)) s

/-- ORA Absolute,Y (R135, R87, opcode 19). -/
def execOraAbsY (addr : Word) (s : State) : Result := orA (s.readByte (eaAbsoluteY addr s)) s

/-- ORA (Indirect,X) (R135, R88, opcode 01). -/
def execOraIndX (b : Byte) (s : State) : Result := orA (s.readByte (eaIndirectX b s)) s

/-- ORA (Indirect),Y (R135, R89, opcode 11). -/
def execOraIndY (b : Byte) (s : State) : Result := orA (s.readByte (eaIndirectY b s)) s

/-- `A <- A ^ m; setZN(A)` (R136). -/
def eorA (m : Byte) (s : State) : Result := .next ((s.setA (s.a ^^^ m)).setZN (s.a ^^^ m))

/-- EOR Immediate (R136, R81, opcode 49). -/
def execEorImm (v : Byte) (s : State) : Result := eorA v s

/-- EOR Zero Page (R136, R82, opcode 45). -/
def execEorZp (b : Byte) (s : State) : Result := eorA (s.readByte (eaZeroPage b)) s

/-- EOR Zero Page,X (R136, R83, opcode 55). -/
def execEorZpX (b : Byte) (s : State) : Result := eorA (s.readByte (eaZeroPageX b s)) s

/-- EOR Absolute (R136, R85, opcode 4D). -/
def execEorAbs (addr : Word) (s : State) : Result := eorA (s.readByte addr) s

/-- EOR Absolute,X (R136, R86, opcode 5D). -/
def execEorAbsX (addr : Word) (s : State) : Result := eorA (s.readByte (eaAbsoluteX addr s)) s

/-- EOR Absolute,Y (R136, R87, opcode 59). -/
def execEorAbsY (addr : Word) (s : State) : Result := eorA (s.readByte (eaAbsoluteY addr s)) s

/-- EOR (Indirect,X) (R136, R88, opcode 41). -/
def execEorIndX (b : Byte) (s : State) : Result := eorA (s.readByte (eaIndirectX b s)) s

/-- EOR (Indirect),Y (R136, R89, opcode 51). -/
def execEorIndY (b : Byte) (s : State) : Result := eorA (s.readByte (eaIndirectY b s)) s

/-- Shift A left by one (R137). -/
def aslA (s : State) : Result :=
  .next ((s.setA (aslResult s.a)).setFlags (s.flags.asl s.a))

/-- Shift a memory byte left by one: one read, one write (R138, R94). -/
def aslMem (ea : Word) (s : State) : Result :=
  .next ((s.writeByte ea (aslResult (s.readByte ea))).setFlags (s.flags.asl (s.readByte ea)))

/-- ASL A (R137, R90, opcode 0A). -/
def execAslAcc (s : State) : Result := aslA s

/-- ASL Zero Page (R138, R82, opcode 06). -/
def execAslZp (b : Byte) (s : State) : Result := aslMem (eaZeroPage b) s

/-- ASL Zero Page,X (R138, R83, opcode 16). -/
def execAslZpX (b : Byte) (s : State) : Result := aslMem (eaZeroPageX b s) s

/-- ASL Absolute (R138, R85, opcode 0E). -/
def execAslAbs (addr : Word) (s : State) : Result := aslMem addr s

/-- ASL Absolute,X (R138, R86, opcode 1E). -/
def execAslAbsX (addr : Word) (s : State) : Result := aslMem (eaAbsoluteX addr s) s

/-- Test an operand against A, writing only Z, N and V (R139). -/
def bitA (m : Byte) (s : State) : Result := .next (s.setFlags (s.flags.bit s.a m))

/-- BIT Zero Page (R139, R82, opcode 24). -/
def execBitZp (b : Byte) (s : State) : Result := bitA (s.readByte (eaZeroPage b)) s

/-- BIT Absolute (R139, R85, opcode 2C). -/
def execBitAbs (addr : Word) (s : State) : Result := bitA (s.readByte addr) s

/-- Increment a memory byte (R140). -/
def incMem (ea : Word) (s : State) : Result :=
  .next ((s.writeByte ea (incByte (s.readByte ea))).setZN (incByte (s.readByte ea)))

/-- INC Zero Page (R140, R82, opcode E6). -/
def execIncZp (b : Byte) (s : State) : Result := incMem (eaZeroPage b) s

/-- INC Zero Page,X (R140, R83, opcode F6). -/
def execIncZpX (b : Byte) (s : State) : Result := incMem (eaZeroPageX b s) s

/-- INC Absolute (R140, R85, opcode EE). -/
def execIncAbs (addr : Word) (s : State) : Result := incMem addr s

/-- INC Absolute,X (R140, R86, opcode FE). -/
def execIncAbsX (addr : Word) (s : State) : Result := incMem (eaAbsoluteX addr s) s

/-- Decrement a memory byte (R141). -/
def decMem (ea : Word) (s : State) : Result :=
  .next ((s.writeByte ea (decByte (s.readByte ea))).setZN (decByte (s.readByte ea)))

/-- DEC Zero Page (R141, R82, opcode C6). -/
def execDecZp (b : Byte) (s : State) : Result := decMem (eaZeroPage b) s

/-- DEC Zero Page,X (R141, R83, opcode D6). -/
def execDecZpX (b : Byte) (s : State) : Result := decMem (eaZeroPageX b s) s

/-- DEC Absolute (R141, R85, opcode CE). -/
def execDecAbs (addr : Word) (s : State) : Result := decMem addr s

/-- DEC Absolute,X (R141, R86, opcode DE). -/
def execDecAbsX (addr : Word) (s : State) : Result := decMem (eaAbsoluteX addr s) s

/-- INX (R142, opcode E8). -/
def execInx (s : State) : Result := .next ((s.setX (incByte s.x)).setZN (incByte s.x))

/-- INY (R143, opcode C8). -/
def execIny (s : State) : Result := .next ((s.setY (incByte s.y)).setZN (incByte s.y))

/-- DEX (R144, opcode CA). -/
def execDex (s : State) : Result := .next ((s.setX (decByte s.x)).setZN (decByte s.x))

/-- DEY (R145, opcode 88). -/
def execDey (s : State) : Result := .next ((s.setY (decByte s.y)).setZN (decByte s.y))

end Sys2Proof.Machine
end

