-- ==== Sys2Proof/Machine/Branch.lean ====
section
/-! DEFINITION. Conditional branches and BRK (spec/44_branch_control.md R170-R179). -/

namespace Sys2Proof.Machine

/-- The common branch (R170): if the test passes PC becomes the target, otherwise it stays at the
instruction after the displacement byte. No flag, other register or memory byte is written. -/
def branch (cond : Bool) (d : Byte) (s : State) : Result :=
  .next (s.setPc (if cond then relativeTarget d s else s.pc))

/-- BCC (R171, R91, opcode 90). -/
def execBcc (d : Byte) (s : State) : Result := branch (s.flags.c == false) d s

/-- BCS (R172, R91, opcode B0). -/
def execBcs (d : Byte) (s : State) : Result := branch (s.flags.c == true) d s

/-- BEQ (R173, R91, opcode F0). -/
def execBeq (d : Byte) (s : State) : Result := branch (s.flags.z == true) d s

/-- BNE (R174, R91, opcode D0). -/
def execBne (d : Byte) (s : State) : Result := branch (s.flags.z == false) d s

/-- BMI (R175, R91, opcode 30). -/
def execBmi (d : Byte) (s : State) : Result := branch (s.flags.n == true) d s

/-- BPL (R176, R91, opcode 10). -/
def execBpl (d : Byte) (s : State) : Result := branch (s.flags.n == false) d s

/-- BVC (R177, R91, opcode 50). -/
def execBvc (d : Byte) (s : State) : Result := branch (s.flags.v == false) d s

/-- BVS (R178, R91, opcode 70). -/
def execBvs (d : Byte) (s : State) : Result := branch (s.flags.v == true) d s

/-- BRK (R179, opcode 00). -/
def execBrk (s : State) : Result := raise .halt s

end Sys2Proof.Machine
end

