-- ==== Sys2Proof/Machine/FlagInstr.lean ====
section
/-! DEFINITION. Flag set and clear instructions: each touches "exactly the named flag and no other", U
included (spec/43_flag_instructions.md R160-R166, spec/90_conflicts.md C2). -/

namespace Sys2Proof.Machine

/-- SEC (R160, opcode 38). -/
def execSec (s : State) : Result := .next (s.setFlags { s.flags with c := true })

/-- CLC (R161, opcode 18). -/
def execClc (s : State) : Result := .next (s.setFlags { s.flags with c := false })

/-- SED (R162, opcode F8). -/
def execSed (s : State) : Result := .next (s.setFlags { s.flags with d := true })

/-- CLD (R163, opcode D8). -/
def execCld (s : State) : Result := .next (s.setFlags { s.flags with d := false })

/-- SEI (R164, opcode 78). -/
def execSei (s : State) : Result := .next (s.setFlags { s.flags with i := true })

/-- CLI (R165, opcode 58). -/
def execCli (s : State) : Result := .next (s.setFlags { s.flags with i := false })

/-- CLV (R166, opcode B8). -/
def execClv (s : State) : Result := .next (s.setFlags { s.flags with v := false })

end Sys2Proof.Machine
end

