-- ==== Sys2Proof/Machine/LoadStore.lean ====
section
/-! DEFINITION. Loads, stores and register transfers (spec/41_load_store_transfer.md R100-R111). Each
meaning runs with PC already past the instruction (spec/30_encoding.md R64). -/

namespace Sys2Proof.Machine

/-- Load a value into A: `A <- v; setZN(v)` (R100). -/
def loadA (v : Byte) (s : State) : Result := .next ((s.setA v).setZN v)

/-- LDA Immediate (R100, R81, opcode A9). -/
def execLdaImm (v : Byte) (s : State) : Result := loadA v s

/-- LDA Zero Page (R100, R82, opcode A5). -/
def execLdaZp (b : Byte) (s : State) : Result := loadA (s.readByte (eaZeroPage b)) s

/-- LDA Zero Page,X (R100, R83, opcode B5). -/
def execLdaZpX (b : Byte) (s : State) : Result := loadA (s.readByte (eaZeroPageX b s)) s

/-- LDA Absolute (R100, R85, opcode AD). -/
def execLdaAbs (addr : Word) (s : State) : Result := loadA (s.readByte addr) s

/-- LDA Absolute,X (R100, R86, opcode BD). -/
def execLdaAbsX (addr : Word) (s : State) : Result := loadA (s.readByte (eaAbsoluteX addr s)) s

/-- LDA Absolute,Y (R100, R87, opcode B9). -/
def execLdaAbsY (addr : Word) (s : State) : Result := loadA (s.readByte (eaAbsoluteY addr s)) s

/-- LDA (Indirect,X) (R100, R88, opcode A1). -/
def execLdaIndX (b : Byte) (s : State) : Result := loadA (s.readByte (eaIndirectX b s)) s

/-- LDA (Indirect),Y (R100, R89, opcode B1). -/
def execLdaIndY (b : Byte) (s : State) : Result := loadA (s.readByte (eaIndirectY b s)) s

/-- Load a value into X: `X <- v; setZN(v)` (R101). -/
def loadX (v : Byte) (s : State) : Result := .next ((s.setX v).setZN v)

/-- LDX Immediate (R101, R81, opcode A2). -/
def execLdxImm (v : Byte) (s : State) : Result := loadX v s

/-- LDX Zero Page (R101, R82, opcode A6). -/
def execLdxZp (b : Byte) (s : State) : Result := loadX (s.readByte (eaZeroPage b)) s

/-- LDX Zero Page,Y (R101, R84, opcode B6). -/
def execLdxZpY (b : Byte) (s : State) : Result := loadX (s.readByte (eaZeroPageY b s)) s

/-- LDX Absolute (R101, R85, opcode AE). -/
def execLdxAbs (addr : Word) (s : State) : Result := loadX (s.readByte addr) s

/-- LDX Absolute,Y (R101, R87, opcode BE). -/
def execLdxAbsY (addr : Word) (s : State) : Result := loadX (s.readByte (eaAbsoluteY addr s)) s

/-- Load a value into Y: `Y <- v; setZN(v)` (R102). -/
def loadY (v : Byte) (s : State) : Result := .next ((s.setY v).setZN v)

/-- LDY Immediate (R102, R81, opcode A0). -/
def execLdyImm (v : Byte) (s : State) : Result := loadY v s

/-- LDY Zero Page (R102, R82, opcode A4). -/
def execLdyZp (b : Byte) (s : State) : Result := loadY (s.readByte (eaZeroPage b)) s

/-- LDY Zero Page,X (R102, R83, opcode B4). -/
def execLdyZpX (b : Byte) (s : State) : Result := loadY (s.readByte (eaZeroPageX b s)) s

/-- LDY Absolute (R102, R85, opcode AC). -/
def execLdyAbs (addr : Word) (s : State) : Result := loadY (s.readByte addr) s

/-- LDY Absolute,X (R102, R86, opcode BC). -/
def execLdyAbsX (addr : Word) (s : State) : Result := loadY (s.readByte (eaAbsoluteX addr s)) s

/-- Store A at an effective address, writing no flag (R103). -/
def storeA (ea : Word) (s : State) : Result := .next (s.writeByte ea s.a)

/-- STA Zero Page (R103, R82, opcode 85). -/
def execStaZp (b : Byte) (s : State) : Result := storeA (eaZeroPage b) s

/-- STA Zero Page,X (R103, R83, opcode 95). -/
def execStaZpX (b : Byte) (s : State) : Result := storeA (eaZeroPageX b s) s

/-- STA Absolute (R103, R85, opcode 8D). -/
def execStaAbs (addr : Word) (s : State) : Result := storeA addr s

/-- STA Absolute,X (R103, R86, opcode 9D). -/
def execStaAbsX (addr : Word) (s : State) : Result := storeA (eaAbsoluteX addr s) s

/-- STA Absolute,Y (R103, R87, opcode 99). -/
def execStaAbsY (addr : Word) (s : State) : Result := storeA (eaAbsoluteY addr s) s

/-- STA (Indirect,X) (R103, R88, opcode 81). -/
def execStaIndX (b : Byte) (s : State) : Result := storeA (eaIndirectX b s) s

/-- STA (Indirect),Y (R103, R89, opcode 91). -/
def execStaIndY (b : Byte) (s : State) : Result := storeA (eaIndirectY b s) s

/-- Store X at an effective address, writing no flag (R104). -/
def storeX (ea : Word) (s : State) : Result := .next (s.writeByte ea s.x)

/-- STX Zero Page (R104, R82, opcode 86). -/
def execStxZp (b : Byte) (s : State) : Result := storeX (eaZeroPage b) s

/-- STX Zero Page,Y (R104, R84, opcode 96). -/
def execStxZpY (b : Byte) (s : State) : Result := storeX (eaZeroPageY b s) s

/-- STX Absolute (R104, R85, opcode 8E). -/
def execStxAbs (addr : Word) (s : State) : Result := storeX addr s

/-- Store Y at an effective address, writing no flag (R105). -/
def storeY (ea : Word) (s : State) : Result := .next (s.writeByte ea s.y)

/-- STY Zero Page (R105, R82, opcode 84). -/
def execStyZp (b : Byte) (s : State) : Result := storeY (eaZeroPage b) s

/-- STY Zero Page,X (R105, R83, opcode 94). -/
def execStyZpX (b : Byte) (s : State) : Result := storeY (eaZeroPageX b s) s

/-- STY Absolute (R105, R85, opcode 8C). -/
def execStyAbs (addr : Word) (s : State) : Result := storeY addr s

/-- TAX (R106, opcode AA). -/
def execTax (s : State) : Result := .next ((s.setX s.a).setZN s.a)

/-- TAY (R107, opcode A8). -/
def execTay (s : State) : Result := .next ((s.setY s.a).setZN s.a)

/-- TXA (R108, opcode 8A). -/
def execTxa (s : State) : Result := .next ((s.setA s.x).setZN s.x)

/-- TYA (R109, opcode 98). -/
def execTya (s : State) : Result := .next ((s.setA s.y).setZN s.y)

/-- TSX (R110, opcode BA). -/
def execTsx (s : State) : Result := .next ((s.setX s.sp).setZN s.sp)

/-- TXS (R111, opcode 9A). -/
def execTxs (s : State) : Result := .next (s.setSp s.x)

end Sys2Proof.Machine
end

