-- ==== Sys2Proof/Machine/Fetch.lean ====
section
/-! DEFINITION. Fetch, decode and execute (spec/30_encoding.md R62-R64): the bytes of an instruction
are read one at a time at PC, which wraps at 16 bits, before the instruction executes. -/

namespace Sys2Proof.Machine

/-- `Fetch8()` (R62): the byte at PC, and PC advanced by one mod 65536. -/
def State.fetch8 (s : State) : Byte × State := (s.readByte s.pc, s.setPc (s.pc + 1))

/-- `Fetch16()` (R63): low byte first. -/
def State.fetch16 (s : State) : Word × State :=
  let (lo, s₁) := s.fetch8
  let (hi, s₂) := s₁.fetch8
  (wordOfBytes lo hi, s₂)

/-- Fetch the operand bytes an opcode calls for (R60, R64). -/
def fetchOperand (sh : Shape) (s : State) : Instr × State :=
  match sh with
  | .noOperand i => (i, s)
  | .byteOperand f => let (b, s₁) := s.fetch8; (f b, s₁)
  | .wordOperand f => let (w, s₁) := s.fetch16; (f w, s₁)

/-- One `STEP` in run state Running (R64): the opcode is fetched and looked up; an opcode without a
handler raises Fatal with the address it was fetched at, before any operand byte is fetched (R201);
otherwise the operand bytes are fetched and the instruction executes. -/
def fetchExecute (s : State) : Result :=
  let (opcode, s₁) := s.fetch8
  match decodeTable opcode with
  | none => raise (.unknownOpcode opcode s.pc) s₁
  | some sh => let (i, s₂) := fetchOperand sh s₁; exec i s₂

end Sys2Proof.Machine
end

