-- ==== Sys2Proof/Machine/Step.lean ====
section
/-! DEFINITION. One `STEP` (spec/00_scope.md R5, R6; spec/30_encoding.md R64; spec/60_exceptions.md
R206; spec/70_reset_and_hazards.md R224), and the placing of an instruction where the next step
fetches. -/

namespace Sys2Proof.Machine

/-- `STEP`: one whole instruction in run state Running, no move or no meaning in any other. -/
def step (s : State) : Host.Outcome State Fault Refusal :=
  match s.noMove with
  | some r => r
  | none => fetchExecute s

/-- The state with an opcode-table word's instruction stored at PC and the run state Running, so that
the next step fetches and runs it (assumption 4). -/
def State.withFetchWord (s : State) (nbits w : Nat) : State := s.placeInstr (tableBytes nbits w)

end Sys2Proof.Machine
end

