-- ==== Sys2Proof/WellFormed.lean ====
section
/-! DEFINITION. Which pairs of mnemonic and addressing mode exist (spec/40_addressing_modes.md R95).
Every operand field has exactly the width the encoding gives it, so the only thing that could be
ill-formed about an instruction is a mode its mnemonic does not have. -/

namespace Sys2Proof

/-- The modes of a mnemonic, a row of R95's table. -/
def Mnemonic.modes : Mnemonic → List Mode
  | .lda | .adc | .and | .ora | .eor =>
    [.immediate, .zeroPage, .zeroPageX, .absolute, .absoluteX, .absoluteY, .indirectX, .indirectY]
  | .sta => [.zeroPage, .zeroPageX, .absolute, .absoluteX, .absoluteY, .indirectX, .indirectY]
  | .ldx => [.immediate, .zeroPage, .zeroPageY, .absolute, .absoluteY]
  | .ldy => [.immediate, .zeroPage, .zeroPageX, .absolute, .absoluteX]
  | .stx => [.zeroPage, .zeroPageY, .absolute]
  | .sty => [.zeroPage, .zeroPageX, .absolute]
  | .asl => [.zeroPage, .zeroPageX, .absolute, .absoluteX, .accumulator]
  | .bit => [.zeroPage, .absolute]
  | .inc | .dec => [.zeroPage, .zeroPageX, .absolute, .absoluteX]
  | .tax | .tay | .txa | .tya | .tsx | .txs | .inx | .iny | .dex | .dey => [.implied]
  | .sec | .clc | .sed | .cld | .sei | .cli | .clv | .brk => [.implied]
  | .bcc | .bcs | .beq | .bne | .bmi | .bpl | .bvc | .bvs => [.relative]

/-- A pair of mnemonic and mode that R95 admits: "A mode a mnemonic does not list in this table does
not exist for it". -/
def formAdmitted (m : Mnemonic) (md : Mode) : Bool := m.modes.contains md

/-- An instruction is well formed when R95 admits its form. -/
def Instr.wellFormed (i : Instr) : Bool := formAdmitted i.mnemonic i.mode

end Sys2Proof
end

