-- ==== Sys2Proof/Machine/Assembler.lean ====
section
/-! DEFINITION. Assembler syntax (spec/30_encoding.md R70, D20): the written form of an operand, the
instruction it selects, and the text of an instruction. Syntax only: the machine does not use it.
DESIGN CHOICE and PRESUMED points of the spelling are in assumptions 6 and 11. -/

namespace Sys2Proof

/-- The instruction of a mnemonic and an operand, where R95 admits the mode. -/
def Instr.ofForm (m : Mnemonic) (op : Operand) : Option Instr :=
  match m with
  | .lda =>
    match op with
    | .immediate v => some (.ldaImm v)
    | .zeroPage b => some (.ldaZp b)
    | .zeroPageX b => some (.ldaZpX b)
    | .absolute addr => some (.ldaAbs addr)
    | .absoluteX addr => some (.ldaAbsX addr)
    | .absoluteY addr => some (.ldaAbsY addr)
    | .indirectX b => some (.ldaIndX b)
    | .indirectY b => some (.ldaIndY b)
    | _ => none
  | .ldx =>
    match op with
    | .immediate v => some (.ldxImm v)
    | .zeroPage b => some (.ldxZp b)
    | .zeroPageY b => some (.ldxZpY b)
    | .absolute addr => some (.ldxAbs addr)
    | .absoluteY addr => some (.ldxAbsY addr)
    | _ => none
  | .ldy =>
    match op with
    | .immediate v => some (.ldyImm v)
    | .zeroPage b => some (.ldyZp b)
    | .zeroPageX b => some (.ldyZpX b)
    | .absolute addr => some (.ldyAbs addr)
    | .absoluteX addr => some (.ldyAbsX addr)
    | _ => none
  | .sta =>
    match op with
    | .zeroPage b => some (.staZp b)
    | .zeroPageX b => some (.staZpX b)
    | .absolute addr => some (.staAbs addr)
    | .absoluteX addr => some (.staAbsX addr)
    | .absoluteY addr => some (.staAbsY addr)
    | .indirectX b => some (.staIndX b)
    | .indirectY b => some (.staIndY b)
    | _ => none
  | .stx =>
    match op with
    | .zeroPage b => some (.stxZp b)
    | .zeroPageY b => some (.stxZpY b)
    | .absolute addr => some (.stxAbs addr)
    | _ => none
  | .sty =>
    match op with
    | .zeroPage b => some (.styZp b)
    | .zeroPageX b => some (.styZpX b)
    | .absolute addr => some (.styAbs addr)
    | _ => none
  | .tax =>
    match op with
    | .implied => some .tax
    | _ => none
  | .tay =>
    match op with
    | .implied => some .tay
    | _ => none
  | .txa =>
    match op with
    | .implied => some .txa
    | _ => none
  | .tya =>
    match op with
    | .implied => some .tya
    | _ => none
  | .tsx =>
    match op with
    | .implied => some .tsx
    | _ => none
  | .txs =>
    match op with
    | .implied => some .txs
    | _ => none
  | .adc =>
    match op with
    | .immediate v => some (.adcImm v)
    | .zeroPage b => some (.adcZp b)
    | .zeroPageX b => some (.adcZpX b)
    | .absolute addr => some (.adcAbs addr)
    | .absoluteX addr => some (.adcAbsX addr)
    | .absoluteY addr => some (.adcAbsY addr)
    | .indirectX b => some (.adcIndX b)
    | .indirectY b => some (.adcIndY b)
    | _ => none
  | .and =>
    match op with
    | .immediate v => some (.andImm v)
    | .zeroPage b => some (.andZp b)
    | .zeroPageX b => some (.andZpX b)
    | .absolute addr => some (.andAbs addr)
    | .absoluteX addr => some (.andAbsX addr)
    | .absoluteY addr => some (.andAbsY addr)
    | .indirectX b => some (.andIndX b)
    | .indirectY b => some (.andIndY b)
    | _ => none
  | .ora =>
    match op with
    | .immediate v => some (.oraImm v)
    | .zeroPage b => some (.oraZp b)
    | .zeroPageX b => some (.oraZpX b)
    | .absolute addr => some (.oraAbs addr)
    | .absoluteX addr => some (.oraAbsX addr)
    | .absoluteY addr => some (.oraAbsY addr)
    | .indirectX b => some (.oraIndX b)
    | .indirectY b => some (.oraIndY b)
    | _ => none
  | .eor =>
    match op with
    | .immediate v => some (.eorImm v)
    | .zeroPage b => some (.eorZp b)
    | .zeroPageX b => some (.eorZpX b)
    | .absolute addr => some (.eorAbs addr)
    | .absoluteX addr => some (.eorAbsX addr)
    | .absoluteY addr => some (.eorAbsY addr)
    | .indirectX b => some (.eorIndX b)
    | .indirectY b => some (.eorIndY b)
    | _ => none
  | .asl =>
    match op with
    | .accumulator => some .aslAcc
    | .zeroPage b => some (.aslZp b)
    | .zeroPageX b => some (.aslZpX b)
    | .absolute addr => some (.aslAbs addr)
    | .absoluteX addr => some (.aslAbsX addr)
    | _ => none
  | .bit =>
    match op with
    | .zeroPage b => some (.bitZp b)
    | .absolute addr => some (.bitAbs addr)
    | _ => none
  | .inc =>
    match op with
    | .zeroPage b => some (.incZp b)
    | .zeroPageX b => some (.incZpX b)
    | .absolute addr => some (.incAbs addr)
    | .absoluteX addr => some (.incAbsX addr)
    | _ => none
  | .dec =>
    match op with
    | .zeroPage b => some (.decZp b)
    | .zeroPageX b => some (.decZpX b)
    | .absolute addr => some (.decAbs addr)
    | .absoluteX addr => some (.decAbsX addr)
    | _ => none
  | .inx =>
    match op with
    | .implied => some .inx
    | _ => none
  | .iny =>
    match op with
    | .implied => some .iny
    | _ => none
  | .dex =>
    match op with
    | .implied => some .dex
    | _ => none
  | .dey =>
    match op with
    | .implied => some .dey
    | _ => none
  | .sec =>
    match op with
    | .implied => some .sec
    | _ => none
  | .clc =>
    match op with
    | .implied => some .clc
    | _ => none
  | .sed =>
    match op with
    | .implied => some .sed
    | _ => none
  | .cld =>
    match op with
    | .implied => some .cld
    | _ => none
  | .sei =>
    match op with
    | .implied => some .sei
    | _ => none
  | .cli =>
    match op with
    | .implied => some .cli
    | _ => none
  | .clv =>
    match op with
    | .implied => some .clv
    | _ => none
  | .bcc =>
    match op with
    | .relative d => some (.bcc d)
    | _ => none
  | .bcs =>
    match op with
    | .relative d => some (.bcs d)
    | _ => none
  | .beq =>
    match op with
    | .relative d => some (.beq d)
    | _ => none
  | .bne =>
    match op with
    | .relative d => some (.bne d)
    | _ => none
  | .bmi =>
    match op with
    | .relative d => some (.bmi d)
    | _ => none
  | .bpl =>
    match op with
    | .relative d => some (.bpl d)
    | _ => none
  | .bvc =>
    match op with
    | .relative d => some (.bvc d)
    | _ => none
  | .bvs =>
    match op with
    | .relative d => some (.bvs d)
    | _ => none
  | .brk =>
    match op with
    | .implied => some .brk
    | _ => none

/-- The written form of an operand (R70). An address of one or two hexadecimal digits is a byte, one
of three or four a word. -/
inductive AsmOperand where
  /-- `MNE` -/
  | bare
  /-- `MNE A` -/
  | acc
  /-- `MNE #$nn` -/
  | imm (v : Byte)
  /-- `MNE $nn` -/
  | short (b : Byte)
  /-- `MNE $nn,X` -/
  | shortX (b : Byte)
  /-- `MNE $nn,Y` -/
  | shortY (b : Byte)
  /-- `MNE $hhll`, or the target address of a branch. -/
  | long (w : Word)
  /-- `MNE $hhll,X` -/
  | longX (w : Word)
  /-- `MNE $hhll,Y` -/
  | longY (w : Word)
  /-- `MNE ($nn,X)` -/
  | indX (b : Byte)
  /-- `MNE ($nn),Y` -/
  | indY (b : Byte)
deriving DecidableEq, Repr

/-- The displacement from the instruction after a branch to its target, where it lies in -128..127
(R70). DEDUCED (assumption 6): the difference is taken mod 65536, as R91 takes the sum. -/
def branchDisplacement (start target : Word) : Option Byte :=
  let diff := target - (start + 2)
  if -128 ≤ diff.toInt ∧ diff.toInt ≤ 127 then some (loByte diff) else none

/-- The operand that a written form selects for an instruction that starts at an address: one or two
digits a zero-page form, three or four an absolute form, and a branch its displacement (R70). -/
def AsmOperand.operand (op : AsmOperand) (m : Mnemonic) (start : Word) : Option Operand :=
  match op with
  | .bare => some .implied
  | .acc => some .accumulator
  | .imm v => some (.immediate v)
  | .short b => some (.zeroPage b)
  | .shortX b => some (.zeroPageX b)
  | .shortY b => some (.zeroPageY b)
  | .long w =>
    if m.modes = [.relative] then (branchDisplacement start w).map .relative
    else some (.absolute w)
  | .longX w => some (.absoluteX w)
  | .longY w => some (.absoluteY w)
  | .indX b => some (.indirectX b)
  | .indY b => some (.indirectY b)

/-- Assemble one line: the instruction, or none where the mnemonic has no such form (R95) or a
branch cannot reach its target. -/
def assemble (m : Mnemonic) (op : AsmOperand) (start : Word) : Option Instr :=
  (op.operand m start).bind (Instr.ofForm m)

/-- The written form of an instruction's operand at an address (R70). -/
def Operand.written (op : Operand) (start : Word) : AsmOperand :=
  match op with
  | .implied => .bare
  | .accumulator => .acc
  | .immediate v => .imm v
  | .zeroPage b => .short b
  | .zeroPageX b => .shortX b
  | .zeroPageY b => .shortY b
  | .absolute w => .long w
  | .absoluteX w => .longX w
  | .absoluteY w => .longY w
  | .indirectX b => .indX b
  | .indirectY b => .indY b
  | .relative d => .long (start + 2 + d.signExtend 16)

/-- The text of a mnemonic (R66). -/
def Mnemonic.text : Mnemonic → String
  | .lda => "LDA"
  | .ldx => "LDX"
  | .ldy => "LDY"
  | .sta => "STA"
  | .stx => "STX"
  | .sty => "STY"
  | .tax => "TAX"
  | .tay => "TAY"
  | .txa => "TXA"
  | .tya => "TYA"
  | .tsx => "TSX"
  | .txs => "TXS"
  | .adc => "ADC"
  | .and => "AND"
  | .ora => "ORA"
  | .eor => "EOR"
  | .asl => "ASL"
  | .bit => "BIT"
  | .inc => "INC"
  | .dec => "DEC"
  | .inx => "INX"
  | .iny => "INY"
  | .dex => "DEX"
  | .dey => "DEY"
  | .sec => "SEC"
  | .clc => "CLC"
  | .sed => "SED"
  | .cld => "CLD"
  | .sei => "SEI"
  | .cli => "CLI"
  | .clv => "CLV"
  | .bcc => "BCC"
  | .bcs => "BCS"
  | .beq => "BEQ"
  | .bne => "BNE"
  | .bmi => "BMI"
  | .bpl => "BPL"
  | .bvc => "BVC"
  | .bvs => "BVS"
  | .brk => "BRK"

/-- A hexadecimal digit. -/
def hexDigit (n : Nat) : Char := (['0', '1', '2', '3', '4', '5', '6', '7', '8', '9', 'A', 'B', 'C',
  'D', 'E', 'F'].getD n '0')

/-- Two hexadecimal digits after the dollar sign (R70). -/
def Byte.text (v : Byte) : String :=
  String.ofList ['$', hexDigit (v.toNat / 16), hexDigit (v.toNat % 16)]

/-- Four hexadecimal digits after the dollar sign (R70). -/
def Word.text (w : Word) : String :=
  String.ofList ['$', hexDigit (w.toNat / 4096), hexDigit (w.toNat / 256 % 16),
    hexDigit (w.toNat / 16 % 16), hexDigit (w.toNat % 16)]

/-- The text of a written operand (R70). -/
def AsmOperand.text : AsmOperand → String
  | .bare => ""
  | .acc => " A"
  | .imm v => " #" ++ Byte.text v
  | .short b => " " ++ Byte.text b
  | .shortX b => " " ++ Byte.text b ++ ",X"
  | .shortY b => " " ++ Byte.text b ++ ",Y"
  | .long w => " " ++ Word.text w
  | .longX w => " " ++ Word.text w ++ ",X"
  | .longY w => " " ++ Word.text w ++ ",Y"
  | .indX b => " (" ++ Byte.text b ++ ",X)"
  | .indY b => " (" ++ Byte.text b ++ "),Y"

/-- The text of an instruction that starts at an address (R70). -/
def Instr.text (i : Instr) (start : Word) : String :=
  i.mnemonic.text ++ (i.operand.written start).text

/-! Reading source text (R70). -/

/-- The value of a hexadecimal digit. -/
def hexValue (c : Char) : Option Nat :=
  if '0' ≤ c ∧ c ≤ '9' then some (c.toNat - '0'.toNat)
  else if 'A' ≤ c ∧ c ≤ 'F' then some (c.toNat - 'A'.toNat + 10)
  else none

/-- The leading hexadecimal digits of a text, and the rest. -/
def takeDigits : List Char → List Nat × List Char
  | [] => ([], [])
  | c :: rest =>
    match hexValue c with
    | some d => let (ds, rest') := takeDigits rest; (d :: ds, rest')
    | none => ([], c :: rest)

/-- A number as written: one or two digits are a byte, three or four a word (R70). -/
inductive AsmNumber where
  /-- One or two digits. -/
  | byte (b : Byte)
  /-- Three or four digits. -/
  | word (w : Word)
deriving DecidableEq, Repr

/-- Read a number: the dollar sign "marks a hexadecimal number" (R70). -/
def parseNumber : List Char → Option (AsmNumber × List Char)
  | '$' :: rest =>
    let (ds, rest') := takeDigits rest
    let n := ds.foldl (fun acc d => acc * 16 + d) 0
    match ds.length with
    | 1 | 2 => some (.byte (BitVec.ofNat 8 n), rest')
    | 3 | 4 => some (.word (BitVec.ofNat 16 n), rest')
    | _ => none
  | _ => none

/-- Read an operand, with no blank in it (R70). -/
def parseOperand : List Char → Option AsmOperand
  | [] => some .bare
  | ['A'] => some .acc
  | '#' :: rest =>
    match parseNumber rest with
    | some (.byte v, []) => some (.imm v)
    | _ => none
  | '(' :: rest =>
    match parseNumber rest with
    | some (.byte b, [',', 'X', ')']) => some (.indX b)
    | some (.byte b, [')', ',', 'Y']) => some (.indY b)
    | _ => none
  | text =>
    match parseNumber text with
    | some (.byte b, []) => some (.short b)
    | some (.byte b, [',', 'X']) => some (.shortX b)
    | some (.byte b, [',', 'Y']) => some (.shortY b)
    | some (.word w, []) => some (.long w)
    | some (.word w, [',', 'X']) => some (.longX w)
    | some (.word w, [',', 'Y']) => some (.longY w)
    | _ => none

/-- Every mnemonic (R66). -/
def Mnemonic.all : List Mnemonic :=
  [.lda, .ldx, .ldy, .sta, .stx, .sty, .tax, .tay, .txa, .tya,
   .tsx, .txs, .adc, .and, .ora, .eor, .asl, .bit, .inc, .dec,
   .inx, .iny, .dex, .dey, .sec, .clc, .sed, .cld, .sei, .cli,
   .clv, .bcc, .bcs, .beq, .bne, .bmi, .bpl, .bvc, .bvs, .brk]

/-- Read a mnemonic (R66, R70). -/
def parseMnemonic (text : List Char) : Option Mnemonic :=
  Mnemonic.all.find? fun m => m.text.toList == text

/-- The words of a text: what stands between blanks. -/
def wordsOf : List Char → List (List Char)
  | [] => []
  | c :: rest =>
    if c = ' ' then [] :: wordsOf rest
    else
      match wordsOf rest with
      | [] => [[c]]
      | w :: ws => (c :: w) :: ws

/-- The statements of a source line: ";" separates statements (R70). -/
def statementsOf : List Char → List (List Char)
  | [] => [[]]
  | c :: rest =>
    if c = ';' then [] :: statementsOf rest
    else
      match statementsOf rest with
      | [] => [[c]]
      | t :: ts => (c :: t) :: ts

/-- A statement's operand: a written form, or the label a branch names (R70). -/
inductive AsmTarget where
  /-- A written operand. -/
  | operand (op : AsmOperand)
  /-- The label of a branch target. -/
  | label (name : List Char)
deriving DecidableEq, Repr

/-- One statement: the labels that stand before it, its mnemonic and its operand. -/
structure AsmStatement where
  /-- The labels set to the statement's address. -/
  labels : List (List Char)
  /-- The mnemonic. -/
  mnemonic : Mnemonic
  /-- The operand. -/
  target : AsmTarget
deriving DecidableEq, Repr

/-- The name of a label written with its colon, as in "loop:". PRESUMED (assumption 11): R70 shows a
label only where a branch names it. -/
def labelName (word : List Char) : Option (List Char) :=
  match word.reverse with
  | ':' :: name => some name.reverse
  | _ => none

/-- Read the words of a statement (R70). A word after a branch that is no number names a label. -/
def parseStatement : List (List Char) → Option AsmStatement
  | [] => none
  | word :: rest =>
    match labelName word with
    | some name =>
      (parseStatement rest).map fun st => { st with labels := name :: st.labels }
    | none =>
      (parseMnemonic word).bind fun m =>
        match rest with
        | [] => some { labels := [], mnemonic := m, target := .operand .bare }
        | [text] =>
          match parseOperand text with
          | some op => some { labels := [], mnemonic := m, target := .operand op }
          | none =>
            if m.modes = [.relative] then
              some { labels := [], mnemonic := m, target := .label text }
            else none
        | _ => none

/-- The instruction of a statement that starts at an address, given the addresses of the labels. -/
def AsmStatement.assemble (st : AsmStatement) (labels : List (List Char × Word)) (start : Word) :
    Option Instr :=
  match st.target with
  | .operand op => Sys2Proof.assemble st.mnemonic op start
  | .label name =>
    (labels.lookup name).bind fun w => Sys2Proof.assemble st.mnemonic (.long w) start

/-- The length of a statement's instruction: a branch has two bytes wherever its target lies (R60). -/
def AsmStatement.length (st : AsmStatement) : Nat :=
  if st.mnemonic.modes = [.relative] then 2
  else
    match st.assemble [] 0 with
    | some i => i.length
    | none => 0

/-- The address of every label, from the address of the first statement. -/
def labelAddresses (start : Word) : List AsmStatement → List (List Char × Word)
  | [] => []
  | st :: rest =>
    st.labels.map (fun name => (name, start)) ++
      labelAddresses (start + BitVec.ofNat 16 st.length) rest

/-- The bytes of statements laid one after another (R61). -/
def assembleStatements (labels : List (List Char × Word)) (start : Word) :
    List AsmStatement → Option (List Byte)
  | [] => some []
  | st :: rest =>
    (st.assemble labels start).bind fun i =>
      (assembleStatements labels (start + BitVec.ofNat 16 i.length) rest).map (encode i ++ ·)

/-- Assemble a source line (R70): the bytes of its statements from a start address, or none where one
of them is no instruction. -/
def assembleLine (start : Word) (source : List Char) : Option (List Byte) :=
  let read := (statementsOf source).mapM fun text =>
    parseStatement ((wordsOf text).filter fun w => !w.isEmpty)
  read.bind fun sts => assembleStatements (labelAddresses start sts) start sts

end Sys2Proof
end

