-- ==== Sys2Proof/Machine/Bus.lean ====
section
/-! DEFINITION. The bus port (spec/00_scope.md R5, R13; spec/20_memory.md R47): the accesses a command
makes, in the order of spec/40_addressing_modes.md R94. The step itself is `step`; what these lists
say of it are statements. -/

namespace Sys2Proof.Machine

/-- One access on the bus (R5). -/
inductive BusAccess where
  /-- `BUS_READ(addr)`. -/
  | read (addr : Word)
  /-- `BUS_WRITE(addr, data)`. -/
  | write (addr : Word) (v : Byte)
deriving DecidableEq, Repr

/-- The data accesses at the effective address, by instruction class (R47). -/
inductive DataAccess where
  /-- Register-only and flag instructions, branches, BRK: none. -/
  | none
  /-- Loads and ALU reads: one read. -/
  | read
  /-- Stores: one write of this byte, no read. -/
  | write (v : Byte)
  /-- INC, DEC and ASL on memory: one read, then one write of this function of the byte read. -/
  | modify (f : Byte → Byte)

/-- R47's table. -/
def dataAccess (m : Mnemonic) (s : State) : DataAccess :=
  match m with
  | .lda | .ldx | .ldy | .adc | .and | .ora | .eor | .bit => .read
  | .sta => .write s.a
  | .stx => .write s.x
  | .sty => .write s.y
  | .inc => .modify incByte
  | .dec => .modify decByte
  | .asl => .modify aslResult
  | .tax | .tay | .txa | .tya | .tsx | .txs | .inx | .iny | .dex | .dey => .none
  | .sec | .clc | .sed | .cld | .sei | .cli | .clv => .none
  | .bcc | .bcs | .beq | .bne | .bmi | .bpl | .bvc | .bvs | .brk => .none

/-- The two pointer reads of the indirect modes, low byte then high byte (R88, R89, R94 point 3). -/
def pointerAccesses (op : Operand) (s : State) : List BusAccess :=
  match op with
  | .indirectX b => [.read ((b + s.x).setWidth 16), .read ((b + s.x + 1).setWidth 16)]
  | .indirectY b => [.read (b.setWidth 16), .read ((b + 1).setWidth 16)]
  | .implied | .accumulator | .immediate _ | .relative _ => []
  | .zeroPage _ | .zeroPageX _ | .zeroPageY _ | .absolute _ | .absoluteX _ | .absoluteY _ => []

/-- The data accesses at an effective address (R94 points 4 and 5). -/
def dataAccesses (d : DataAccess) (ea : Word) (s : State) : List BusAccess :=
  match d with
  | .none => []
  | .read => [.read ea]
  | .write v => [.write ea v]
  | .modify f => [.read ea, .write ea (f (s.readByte ea))]

/-- The accesses of an instruction after its bytes have been fetched; only a memory mode has an
effective address, so Immediate and Accumulator make none (R47, R94 points 3 to 5). -/
def instrAccesses (i : Instr) (s : State) : List BusAccess :=
  match resolve i.operand s with
  | .mem ea => pointerAccesses i.operand s ++ dataAccesses (dataAccess i.mnemonic s) ea s
  | .imm _ | .acc | .target _ | .nothing => []

/-- The operand fetches of an opcode, at increasing PC (R94 point 2). -/
def operandAccesses (sh : Shape) (s : State) : List BusAccess :=
  match sh with
  | .noOperand _ => []
  | .byteOperand _ => [.read s.pc]
  | .wordOperand _ => [.read s.pc, .read (s.pc + 1)]

/-- The bus accesses of the next `STEP` (R94): opcode, operand bytes, pointer, data read, data write.
An unknown opcode fetches nothing further (R201), and without a move there is none (R206, R224). -/
def busAccesses (s : State) : List BusAccess :=
  match s.run with
  | .running =>
    let (opcode, s₁) := s.fetch8
    .read s.pc ::
      match decodeTable opcode with
      | none => []
      | some sh =>
        let (i, s₂) := fetchOperand sh s₁
        operandAccesses sh s₁ ++ instrAccesses i s₂
  | .halted | .faulted _ _ | .unreset => []

/-- The bus accesses of `RESET`: exactly two reads (R220, D12). -/
def resetAccesses : List BusAccess :=
  [.read Config.resetVectorLow, .read Config.resetVectorHigh]

/-- What a list of accesses does to memory: its writes, in order (R42, R43). -/
def Memory.afterAccesses (m : Memory) : List BusAccess → Memory
  | [] => m
  | .read _ :: rest => Memory.afterAccesses m rest
  | .write addr v :: rest => Memory.afterAccesses (m.write addr.toNat v) rest

end Sys2Proof.Machine
end

