-- ==== Sys2Proof/Machine/HostPort.lean ====
section
/-! DEFINITION. The block's interface to the host (spec/00_scope.md R5-R8, spec/60_exceptions.md R200,
R212, spec/70_reset_and_hazards.md R222-R224, R228): the commands, what they answer, and what the host
reads between them. -/

namespace Sys2Proof.Machine

/-- What the host can do to the block (R8); to observe is to read `State.snapshot`. -/
inductive Command where
  /-- Write one byte of the initial memory image, before `RESET` (R8, R222). -/
  | hostLoad (addr : Word) (v : Byte)
  /-- `RESET` (R5, R220). -/
  | reset
  /-- `STEP` (R5, R64). -/
  | step
deriving DecidableEq, Repr

/-- What a command does. Loading is a move only before the first `RESET` (R7, R8, D16, assumption 5);
`RESET` is accepted in every run state (R223). -/
def command (c : Command) (s : State) : Result :=
  match c with
  | .hostLoad addr v =>
    match s.run with
    | .unreset => .next (s.writeByte addr v)
    | .running | .halted | .faulted _ _ => .refused .hostWriteAfterReset
  | .reset => .next s.resetAction
  | .step => Sys2Proof.Machine.step s

/-- `STATUS` (R5, R200). -/
inductive Status where
  /-- CONTINUE: an admitted instruction other than BRK executed. -/
  | continue
  /-- HALT: BRK executed. -/
  | halt
  /-- FATAL: the opcode byte has no handler. -/
  | fatal
deriving DecidableEq, Repr

/-- The numeric code of a status (R200, D14). -/
def Status.code : Status → Nat
  | .continue => 0
  | .halt => 1
  | .fatal => 2

/-- `UnknownOpcode{opcode, pc}`, the fault record (R5, R201). -/
structure FaultRecord where
  /-- The raw opcode byte. -/
  opcode : Byte
  /-- The PC value at which it was fetched, before the increment. -/
  pc : Word
deriving DecidableEq, Repr

/-- The `STATUS` of the `STEP` that led to a state, read off the run state by R200's table; none
before the first `RESET`. -/
def State.status (s : State) : Option Status :=
  match s.run with
  | .running => some .continue
  | .halted => some .halt
  | .faulted _ _ => some .fatal
  | .unreset => none

/-- `FAULT_RECORD`, valid when STATUS is FATAL (R5, R201, R202). -/
def State.faultRecord (s : State) : Option FaultRecord :=
  match s.run with
  | .faulted opcode pc => some { opcode := opcode, pc := pc }
  | .running | .halted | .unreset => none

/-- `SNAPSHOT` (R5, R212): the named registers and flags, with STATUS and FAULT_RECORD. -/
structure Snapshot where
  /-- A. -/
  a : Byte
  /-- X. -/
  x : Byte
  /-- Y. -/
  y : Byte
  /-- S. -/
  sp : Byte
  /-- PC. -/
  pc : Word
  /-- The eight flags, as named bits (R32). -/
  flags : Flags
  /-- STATUS. -/
  status : Option Status
  /-- FAULT_RECORD. -/
  faultRecord : Option FaultRecord
deriving DecidableEq, Repr

/-- Read `SNAPSHOT`; reading changes nothing (R6, R212). -/
def State.snapshot (s : State) : Snapshot :=
  { a := s.a, x := s.x, y := s.y, sp := s.sp, pc := s.pc, flags := s.flags
    status := s.status, faultRecord := s.faultRecord }

/-- The flags as one byte, for display only (D15): N V U B D I Z C from bit 7 to bit 0. It is not
architectural (R32): no rule reads it, and no statement is made about it. -/
def Flags.displayByte (f : Flags) : Byte :=
  BitVec.ofNat 8 (f.n.toNat * 128 + f.v.toNat * 64 + f.u.toNat * 32 + f.b.toNat * 16 +
    f.d.toNat * 8 + f.i.toNat * 4 + f.z.toNat * 2 + f.c.toNat)

/-- How far a run has come (R228). -/
inductive RunEnd where
  /-- A step returned HALT or FATAL: this is the end state. -/
  | ended (s : State)
  /-- Every step so far returned CONTINUE. -/
  | unfinished (s : State)
  /-- The run began in a state in which `STEP` has no move or no meaning. -/
  | notStarted (s : State)
deriving DecidableEq, Repr

/-- `STEP` repeated while STATUS is CONTINUE, at most a number of times (R228). -/
def runFrom : Nat → State → RunEnd
  | 0, s => .unfinished s
  | k + 1, s =>
    match Sys2Proof.Machine.step s with
    | .next t =>
      match t.run with
      | .running => runFrom k t
      | .halted | .faulted _ _ | .unreset => .ended t
    | .fault _ => .notStarted s
    | .refused _ => .notStarted s

/-- A run (R228): one `RESET`, then `STEP` while STATUS is CONTINUE. -/
def runAfterReset (k : Nat) (s : State) : RunEnd := runFrom k s.resetAction

end Sys2Proof.Machine
end

