-- ==== Sys2Proof/Safety.lean ====
section
/-! DEFINITION. What counts as a safe step and a successful run, the invariants of the machine, and
the ways two answers are compared in statements. -/

namespace Sys2Proof.Machine

/-- A safe answer: a next state that has not faulted. "The faulted state is never a successful end"
(spec/93_implementation_defined.md, row 1). -/
def safeAnswer (r : Result) : Bool :=
  match r with
  | .next t =>
    match t.run with
    | .running | .halted => true
    | .faulted _ _ | .unreset => false
  | .fault _ => false
  | .refused _ => false

/-- The premise that D3 and D4 ask of a claim, at one state: the opcode at PC is one of R65's. -/
def State.opcodeAdmitted (s : State) : Bool := (decodeTable (s.readByte s.pc)).isSome

/-- A successful run ends Halted (spec/93_implementation_defined.md, row 5). -/
def RunEnd.successful : RunEnd → Bool
  | .ended t => t.run == .halted
  | .unfinished _ => false
  | .notStarted _ => false

/-- The machine's invariant: the memory is in canonical form and, once the machine has been reset, U
is 1 (R29) and B is 0 (R30). -/
def State.Inv (s : State) : Prop :=
  s.mem.wf = true ∧ (s.run ≠ .unreset → s.flags.u = true ∧ s.flags.b = false)

/-- What holds where a run has ended (R27, R179, R201): after Halt the byte before PC is a BRK
opcode; after Fatal PC is the recorded address plus 1, and the recorded opcode is the byte stored
there and has no handler. -/
def State.EndRecorded (s : State) : Prop :=
  match s.run with
  | .halted => s.readByte (s.pc - 1) = 0x00
  | .faulted opcode pc =>
    s.pc = pc + 1 ∧ s.readByte pc = opcode ∧ (decodeTable opcode).isNone = true
  | .running => True
  | .unreset => True

/-- Change the next state of an answer and leave a fault or a refusal as it is. -/
def onNext (f : State → State) (r : Result) : Result :=
  match r with
  | .next t => .next (f t)
  | .fault e => .fault e
  | .refused e => .refused e

/-- A state with fixed values in the four flags that no instruction reads: U, B, D and I (R28). -/
def State.withUnreadFlags (s : State) (u b d i : Bool) : State :=
  s.setFlags { s.flags with u := u, b := b, d := d, i := i }

/-- A state with another memory. -/
def State.withMemory (s : State) (m : Memory) : State := { s with mem := m }

/-- R67's list of the 152 illegal opcode bytes. -/
def illegalOpcodes : List Byte :=
  [0x02, 0x03, 0x04, 0x07, 0x08, 0x0B, 0x0C, 0x0F, 0x12, 0x13, 0x14, 0x17, 0x1A, 0x1B, 0x1C, 0x1F] ++
  [0x20, 0x22, 0x23, 0x26, 0x27, 0x28, 0x2A, 0x2B, 0x2E, 0x2F, 0x32, 0x33, 0x34, 0x36, 0x37, 0x3A] ++
  [0x3B, 0x3C, 0x3E, 0x3F, 0x40, 0x42, 0x43, 0x44, 0x46, 0x47, 0x48, 0x4A, 0x4B, 0x4C, 0x4E, 0x4F] ++
  [0x52, 0x53, 0x54, 0x56, 0x57, 0x5A, 0x5B, 0x5C, 0x5E, 0x5F, 0x60, 0x62, 0x63, 0x64, 0x66, 0x67] ++
  [0x68, 0x6A, 0x6B, 0x6C, 0x6E, 0x6F, 0x72, 0x73, 0x74, 0x76, 0x77, 0x7A, 0x7B, 0x7C, 0x7E, 0x7F] ++
  [0x80, 0x82, 0x83, 0x87, 0x89, 0x8B, 0x8F, 0x92, 0x93, 0x97, 0x9B, 0x9C, 0x9E, 0x9F, 0xA3, 0xA7] ++
  [0xAB, 0xAF, 0xB2, 0xB3, 0xB7, 0xBB, 0xBF, 0xC0, 0xC1, 0xC2, 0xC3, 0xC4, 0xC5, 0xC7, 0xC9, 0xCB] ++
  [0xCC, 0xCD, 0xCF, 0xD1, 0xD2, 0xD3, 0xD4, 0xD5, 0xD7, 0xD9, 0xDA, 0xDB, 0xDC, 0xDD, 0xDF, 0xE0] ++
  [0xE1, 0xE2, 0xE3, 0xE4, 0xE5, 0xE7, 0xE9, 0xEA, 0xEB, 0xEC, 0xED, 0xEF, 0xF1, 0xF2, 0xF3, 0xF4] ++
  [0xF5, 0xF7, 0xF9, 0xFA, 0xFB, 0xFC, 0xFD, 0xFF]

/-- The mode in which the decoder reads an opcode as an instruction of a mnemonic, if it does (R65). -/
def decodedMode (m : Mnemonic) (op : Byte) : Option Mode :=
  (decodeTable op).bind fun sh => if sh.sample.mnemonic = m then some sh.sample.mode else none

/-- The opcodes the decoder reads as a mnemonic, each with its mode, are exactly these: the
"Encoding" line of an instruction's rule beside its list of modes. -/
def HasForms (m : Mnemonic) (forms : List (Byte × Mode)) : Prop :=
  ∀ op : Byte, decodedMode m op = forms.lookup op

/-- The value of the most recent write to an address in a list of accesses (R51). -/
def latestWrite (addr : Word) (accs : List BusAccess) : Option Byte :=
  accs.reverse.findSome? fun acc =>
    match acc with
    | .write b v => if b = addr then some v else none
    | .read _ => none

end Sys2Proof.Machine
end

