-- ==== Sys2Proof/Certificates/Slice0/Obligations.lean ====
section
/-! DEFINITION. The statements about the machine, taken from the numbered rules of spec/. `exec` runs
after the instruction's bytes have been fetched, so in every statement about `exec` the PC of the state
is the address of the next instruction (R64); `StepRunsTheFetchedInstruction` says how a step comes to
it. -/

open Sys2Proof Sys2Proof.Machine

/-! ## Reset, run states and the host -/

/-- R220, R223: what RESET leaves, from any state in any run state; memory is not cleared. -/
def Obligations.ResetGivesTheCompleteResetState : Prop :=
  ∀ s : State,
    command .reset s = .next
      { a := 0x00, x := 0x00, y := 0x00, sp := 0xFD
        pc := s.readByte 0xFFFD ++ s.readByte 0xFFFC
        flags := { n := false, v := false, u := true, b := false, d := false, i := false,
                   z := false, c := false }
        run := .running
        mem := s.mem } ∧
    resetAccesses = [.read 0xFFFC, .read 0xFFFD]

/-- The state after reset is RESET over a memory that lists nothing. That such a memory reads 0, and
so PC is 0x0000, is the model's choice (assumption 1). -/
def Obligations.ResetStateIsResetOverUnlistedMemory : Prop :=
  ∀ s : State, s.mem = [] → command .reset s = .next State.reset ∧ State.reset.pc = 0x0000

/-- R224: STEP before the first RESET is refused, and the registers that RESET finds, which hold no
defined value, reach nothing. -/
def Obligations.StepIsRefusedBeforeReset : Prop :=
  (∀ s : State, s.run = .unreset → step s = .refused .stepBeforeReset) ∧
  ∀ s s' : State, s.mem = s'.mem → command .reset s = command .reset s'

/-- 60_exceptions.md section 5, 00_scope.md section 4: in a terminal run state STEP has no move, and
RESET is the one command with a move. That "no move" is a named fault is the model's reading
(assumption 3), and so is the refusal of a host write there (assumption 5). -/
def Obligations.EndedRunIsLeftOnlyByReset : Prop :=
  ∀ s : State,
    (s.run = .halted → step s = .fault .haltedNoMove) ∧
    (∀ op pc, s.run = .faulted op pc → step s = .fault (.faultedNoMove op pc)) ∧
    ((s.run = .halted ∨ ∃ op pc, s.run = .faulted op pc) →
      command .reset s = .next s.resetAction ∧
      ∀ c t, command c s = .next t → c = .reset)

/-- R7, R8, D16: the host writes memory only before the first RESET. The refusal of a later write is
the model's reading of "has no move" (assumption 5). -/
def Obligations.HostWritesMemoryOnlyBeforeReset : Prop :=
  ∀ (s : State) (addr : Word) (v : Byte),
    command (.hostLoad addr v) s =
      if s.run = .unreset then .next (s.writeByte addr v) else .refused .hostWriteAfterReset

/-! ## Memory -/

/-- R51: after any accesses on the bus, an address reads the value of the most recent write to it,
and what the memory held before where there was none. -/
def Obligations.ReadReturnsTheMostRecentWrite : Prop :=
  ∀ (m : Memory) (accs : List BusAccess) (addr : Word),
    (m.afterAccesses accs).read addr.toNat = (latestWrite addr accs).getD (m.read addr.toNat)

/-- R40, R43: memories in canonical form that hold the same byte at each of the 65536 addresses are
the same data. -/
def Obligations.CanonicalMemoriesWithEqualBytesAreEqual : Prop :=
  ∀ m m' : Memory, m.wf = true → m'.wf = true →
    (∀ addr : Word, m.read addr.toNat = m'.read addr.toNat) → m = m'

/-! ## Addressing modes -/

/-- R81, R82, R85, R90, R92: the modes that compute nothing, with the number and order of their
operand bytes. -/
def Obligations.DirectModesResolve : Prop :=
  (∀ (v : Byte) (s : State),
    resolve (.immediate v) s = .imm v ∧ (Operand.immediate v).bytes = [v]) ∧
  (∀ (b : Byte) (s : State),
    (∃ ea, resolve (.zeroPage b) s = .mem ea ∧ ea.toNat = b.toNat) ∧
    (Operand.zeroPage b).bytes = [b]) ∧
  (∀ (lo hi : Byte) (s : State),
    resolve (.absolute (hi ++ lo)) s = .mem (hi ++ lo) ∧
    (Operand.absolute (hi ++ lo)).bytes = [lo, hi]) ∧
  (∀ s : State, resolve .accumulator s = .acc ∧ Operand.accumulator.bytes = []) ∧
  (∀ s : State, resolve .implied s = .nothing ∧ Operand.implied.bytes = []) ∧
  ∀ i : Instr, i.mode = .accumulator ↔ i = .aslAcc

/-- R93: the source value of a resolved operand; a Target or None has none. -/
def Obligations.LoadReadsTheResolvedOperand : Prop :=
  ∀ s : State,
    (∀ v, load (.imm v) s = some v) ∧
    (∀ ea, load (.mem ea) s = some (s.mem.read ea.toNat)) ∧
    load .acc s = some s.a ∧
    (∀ t, load (.target t) s = none) ∧
    load .nothing s = none

/-- R83, R84: zero-page indexing wraps within page zero; only LDX and STX index it by Y. -/
def Obligations.ZeroPageIndexingWrapsInPageZero : Prop :=
  (∀ (b : Byte) (s : State),
    (∃ ea, resolve (.zeroPageX b) s = .mem ea ∧ ea.toNat = (b.toNat + s.x.toNat) % 256) ∧
    (Operand.zeroPageX b).bytes = [b]) ∧
  (∀ (b : Byte) (s : State),
    (∃ ea, resolve (.zeroPageY b) s = .mem ea ∧ ea.toNat = (b.toNat + s.y.toNat) % 256) ∧
    (Operand.zeroPageY b).bytes = [b]) ∧
  ∀ i : Instr, i.mode = .zeroPageY → i.mnemonic = .ldx ∨ i.mnemonic = .stx

/-- R86, R87: absolute indexing carries into the high byte and wraps mod 65536. -/
def Obligations.AbsoluteIndexingWrapsAtTheTopOfMemory : Prop :=
  ∀ (lo hi : Byte) (s : State),
    (∃ ea, resolve (.absoluteX (hi ++ lo)) s = .mem ea ∧
      ea.toNat = (hi.toNat * 256 + lo.toNat + s.x.toNat) % 65536) ∧
    (∃ ea, resolve (.absoluteY (hi ++ lo)) s = .mem ea ∧
      ea.toNat = (hi.toNat * 256 + lo.toNat + s.y.toNat) % 65536) ∧
    (Operand.absoluteX (hi ++ lo)).bytes = [lo, hi] ∧
    (Operand.absoluteY (hi ++ lo)).bytes = [lo, hi]

/-- R88: the pointer of (Indirect,X) lies in page zero, low byte first, and its high byte is at
pointer + 1 mod 256. -/
def Obligations.IndirectXReadsAPageZeroPointer : Prop :=
  ∀ (b : Byte) (s : State),
    (∃ ea, resolve (.indirectX b) s = .mem ea ∧
      ea.toNat =
        (s.mem.read (((b.toNat + s.x.toNat) % 256 + 1) % 256)).toNat * 256 +
        (s.mem.read ((b.toNat + s.x.toNat) % 256)).toNat) ∧
    (Operand.indirectX b).bytes = [b]

/-- R89: (Indirect),Y adds Y to the 16-bit value at the page-zero pointer, mod 65536. -/
def Obligations.IndirectYAddsYToThePointer : Prop :=
  ∀ (p : Byte) (s : State),
    (∃ ea, resolve (.indirectY p) s = .mem ea ∧
      ea.toNat =
        ((s.mem.read ((p.toNat + 1) % 256)).toNat * 256 + (s.mem.read p.toNat).toNat +
          s.y.toNat) % 65536) ∧
    (Operand.indirectY p).bytes = [p]

/-- R91: the signed displacement added to PC after the displacement byte, mod 65536. -/
def Obligations.RelativeTargetWraps : Prop :=
  ∀ (d : Byte) (s : State),
    (∃ t, resolve (.relative d) s = .target t ∧
      (t.toNat : Int) =
        ((s.pc.toNat : Int) + (if d.getLsbD 7 then (d.toNat : Int) - 256 else d.toNat)) % 65536) ∧
    (Operand.relative d).bytes = [d]

/-! ## Encoding -/

/-- R60, R61, R63, R65, R66: decoding the encoding of any instruction, in any byte stream, gives it
back with the rest of the stream. -/
def Obligations.DecodeOfEncodeIsTheInstruction : Prop :=
  ∀ (i : Instr) (rest : List Byte), decode (encode i ++ rest) = .ok (i, rest)

/-- R60, R61, R65: whatever bytes decode to an instruction are that instruction's encoding. -/
def Obligations.EncodeOfDecodeIsTheBytes : Prop :=
  ∀ (bytes : List Byte) (i : Instr) (rest : List Byte),
    decode bytes = .ok (i, rest) → bytes = encode i ++ rest

/-- R67: the 152 listed bytes are exactly the opcodes the decoder refuses, and fetching one raises
Fatal with the opcode and the address it was fetched at. -/
def Obligations.IllegalOpcodesAreExactlyTheListed : Prop :=
  illegalOpcodes.length = 152 ∧ illegalOpcodes.Nodup ∧
  (∀ (op : Byte) (rest : List Byte),
    decode (op :: rest) = .error (.unknownOpcode op) ↔ op ∈ illegalOpcodes) ∧
  ∀ s : State, s.run = .running → s.readByte s.pc ∈ illegalOpcodes →
    ∃ t, step s = .next t ∧ t.run = .faulted (s.readByte s.pc) s.pc

/-- R95: the forms the decoder reads are the pairs of the table, each from one opcode, and a form and
an operand make one instruction. -/
def Obligations.DecodedFormsAreTheAdmittedOnes : Prop :=
  (∀ m md, formAdmitted m md = true ↔ ∃ op, decodedMode m op = some md) ∧
  (∀ m md op op', decodedMode m op = some md → decodedMode m op' = some md → op = op') ∧
  (∀ m op, (Instr.ofForm m op).isSome = formAdmitted m op.mode) ∧
  ∀ m op i, Instr.ofForm m op = some i ↔ i.mnemonic = m ∧ i.operand = op

/-- Words written out from R65's grid decode to the instructions they stand for. -/
def Obligations.WrittenOutWordsDecode : Prop :=
  decode [0xA9, 0x10] = .ok (.ldaImm 0x10, []) ∧
  decode [0x99, 0x00, 0x03] = .ok (.staAbsY 0x0300, []) ∧
  decode [0x7D, 0xF0, 0x10] = .ok (.adcAbsX 0x10F0, []) ∧
  decode [0x11, 0x80] = .ok (.oraIndY 0x80, []) ∧
  decode [0x0A] = .ok (.aslAcc, []) ∧
  decode [0xB6, 0xF8] = .ok (.ldxZpY 0xF8, []) ∧
  decode [0xF8] = .ok (.sed, []) ∧
  decode [0xD0, 0xFA] = .ok (.bne 0xFA, []) ∧
  decode [0x00] = .ok (.brk, [])

/-- R60, R69: the length and the mode follow from the opcode byte alone. -/
def Obligations.LengthFollowsFromTheOpcode : Prop :=
  (∀ i : Instr, i.length =
    match i.mode with
    | .implied | .accumulator => 1
    | .immediate | .zeroPage | .zeroPageX | .zeroPageY | .indirectX | .indirectY | .relative => 2
    | .absolute | .absoluteX | .absoluteY => 3) ∧
  (∀ bytes i rest, decode bytes = .ok (i, rest) → bytes.length = i.length + rest.length) ∧
  ∀ op bytes bytes' i i' rest rest', decode (op :: bytes) = .ok (i, rest) →
    decode (op :: bytes') = .ok (i', rest') → i.mnemonic = i'.mnemonic ∧ i.mode = i'.mode

/-! ## The step -/

/-- R62, R63, R64: with the run state Running, a step runs the instruction that the bytes at PC
decode to, PC having moved past them and wrapped at 16 bits; with an opcode without a handler it
raises Fatal, PC having moved past the opcode. -/
def Obligations.StepRunsTheFetchedInstruction : Prop :=
  ∀ s : State, s.run = .running →
    match decode [s.readByte s.pc, s.readByte (s.pc + 1), s.readByte (s.pc + 2)] with
    | .ok (i, _) => step s = exec i { s with pc := s.pc + BitVec.ofNat 16 i.length }
    | .error _ =>
      step s = .next { s with pc := s.pc + 1, run := .faulted (s.readByte s.pc) s.pc }

/-- R201: an unknown opcode is detected right after its fetch, recorded with the address it was
fetched at, and changes only PC and the run state. -/
def Obligations.UnknownOpcodeIsRecorded : Prop :=
  ∀ s : State, s.run = .running → (decodeTable (s.readByte s.pc)).isNone = true →
    busAccesses s = [.read s.pc] ∧
    ∃ t, step s = .next t ∧
      t = { s with pc := s.pc + 1, run := .faulted (s.readByte s.pc) s.pc } ∧
      t.status = some .fatal ∧
      t.faultRecord = some { opcode := s.readByte s.pc, pc := s.pc }

/-- R200, R204: a step in Running always answers, with one of three outcomes: FATAL where the opcode
has no handler, else HALT where it is BRK's, else CONTINUE; and a fault record is valid exactly
with FATAL. -/
def Obligations.StepOutcomeFollowsFromTheOpcode : Prop :=
  ∀ s : State, s.run = .running →
    ∃ t, step s = .next t ∧
      (if (decodeTable (s.readByte s.pc)).isNone then
        t.run = .faulted (s.readByte s.pc) s.pc ∧ t.status.map Status.code = some 2
      else if s.readByte s.pc = 0x00 then
        t.run = .halted ∧ t.status.map Status.code = some 1
      else t.run = .running ∧ t.status.map Status.code = some 0) ∧
      (t.faultRecord.isSome ↔ t.status = some .fatal)

/-- R27: where a run ends, PC is the address of the last opcode plus 1, and what ended the run is
recorded. -/
def Obligations.EndOfRunLeavesPcAfterTheOpcode : Prop :=
  ∀ s t : State, step s = .next t → t.run ≠ .running → t.pc = s.pc + 1 ∧ t.EndRecorded

/-- R179, R202: BRK is one byte; it halts, and changes only PC, by the opcode fetch, and the run
state. -/
def Obligations.BrkHalts : Prop :=
  HasForms .brk [(0x00, .implied)] ∧
  (∀ s : State, exec .brk s = .next { s with run := .halted }) ∧
  (∀ s : State, s.run = .running → s.readByte s.pc = 0x00 →
    step s = .next { s with pc := s.pc + 1, run := .halted } ∧ busAccesses s = [.read s.pc]) ∧
  ∀ s t : State, step s = .next t → t.run = .halted → s.readByte s.pc = 0x00 ∧ t.faultRecord = none

/-- Assumption 4: an opcode-table word placed in a state is the instruction its next step runs. -/
def Obligations.PlacedInstructionRunsNext : Prop :=
  ∀ (s : State) (nbits w : Nat) (i : Instr), decodeTableWord nbits w = some i →
    step (s.withFetchWord nbits w) =
      exec i { s.withFetchWord nbits w with pc := s.pc + BitVec.ofNat 16 i.length }

/-! ## Loads, stores and transfers -/

/-- R100: LDA loads its operand in every mode, sets Z and N from it and forces U to 1. Constructors:
ldaImm, ldaZp, ldaZpX, ldaAbs, ldaAbsX, ldaAbsY, ldaIndX, ldaIndY. -/
def Obligations.LdaLoadsA : Prop :=
  HasForms .lda [(0xA9, .immediate), (0xA5, .zeroPage), (0xB5, .zeroPageX),
        (0xAD, .absolute), (0xBD, .absoluteX), (0xB9, .absoluteY), (0xA1, .indirectX),
        (0xB1, .indirectY)] ∧
  ∀ (i : Instr) (s : State), i.mnemonic = .lda →
    ∃ v, load (resolve i.operand s) s = some v ∧
      exec i s = .next { s with
        a := v
        flags := { s.flags with z := (v == 0x00), n := v.getLsbD 7, u := true } }

/-- R101: LDX loads its operand in every mode, sets Z and N from it and forces U to 1. Constructors:
ldxImm, ldxZp, ldxZpY, ldxAbs, ldxAbsY. -/
def Obligations.LdxLoadsX : Prop :=
  HasForms .ldx [(0xA2, .immediate), (0xA6, .zeroPage), (0xB6, .zeroPageY),
        (0xAE, .absolute), (0xBE, .absoluteY)] ∧
  ∀ (i : Instr) (s : State), i.mnemonic = .ldx →
    ∃ v, load (resolve i.operand s) s = some v ∧
      exec i s = .next { s with
        x := v
        flags := { s.flags with z := (v == 0x00), n := v.getLsbD 7, u := true } }

/-- R102: LDY loads its operand in every mode, sets Z and N from it and forces U to 1. Constructors:
ldyImm, ldyZp, ldyZpX, ldyAbs, ldyAbsX. -/
def Obligations.LdyLoadsY : Prop :=
  HasForms .ldy [(0xA0, .immediate), (0xA4, .zeroPage), (0xB4, .zeroPageX),
        (0xAC, .absolute), (0xBC, .absoluteX)] ∧
  ∀ (i : Instr) (s : State), i.mnemonic = .ldy →
    ∃ v, load (resolve i.operand s) s = some v ∧
      exec i s = .next { s with
        y := v
        flags := { s.flags with z := (v == 0x00), n := v.getLsbD 7, u := true } }

/-- R103: STA stores its register at the effective address of its mode, in every mode, and changes
nothing else; it writes no flag. Constructors: staZp, staZpX, staAbs, staAbsX, staAbsY, staIndX,
staIndY. -/
def Obligations.StaStoresA : Prop :=
  HasForms .sta [(0x85, .zeroPage), (0x95, .zeroPageX), (0x8D, .absolute),
        (0x9D, .absoluteX), (0x99, .absoluteY), (0x81, .indirectX), (0x91, .indirectY)] ∧
  ∀ (i : Instr) (s : State), i.mnemonic = .sta →
    ∃ ea, resolve i.operand s = .mem ea ∧
      exec i s = .next { s with mem := s.mem.write ea.toNat s.a }

/-- R104: STX stores its register at the effective address of its mode, in every mode, and changes
nothing else; it writes no flag. Constructors: stxZp, stxZpY, stxAbs. -/
def Obligations.StxStoresX : Prop :=
  HasForms .stx [(0x86, .zeroPage), (0x96, .zeroPageY), (0x8E, .absolute)] ∧
  ∀ (i : Instr) (s : State), i.mnemonic = .stx →
    ∃ ea, resolve i.operand s = .mem ea ∧
      exec i s = .next { s with mem := s.mem.write ea.toNat s.x }

/-- R105: STY stores its register at the effective address of its mode, in every mode, and changes
nothing else; it writes no flag. Constructors: styZp, styZpX, styAbs. -/
def Obligations.StyStoresY : Prop :=
  HasForms .sty [(0x84, .zeroPage), (0x94, .zeroPageX), (0x8C, .absolute)] ∧
  ∀ (i : Instr) (s : State), i.mnemonic = .sty →
    ∃ ea, resolve i.operand s = .mem ea ∧
      exec i s = .next { s with mem := s.mem.write ea.toNat s.y }

/-- R106-R111: the six transfers; TXS alone writes no flag. -/
def Obligations.TransfersCopyARegister : Prop :=
  HasForms .tax [(0xAA, .implied)] ∧
  HasForms .tay [(0xA8, .implied)] ∧
  HasForms .txa [(0x8A, .implied)] ∧
  HasForms .tya [(0x98, .implied)] ∧
  HasForms .tsx [(0xBA, .implied)] ∧
  HasForms .txs [(0x9A, .implied)] ∧
  ∀ s : State,
    exec .tax s = .next { s with
      x := s.a
      flags := { s.flags with z := (s.a == 0x00), n := s.a.getLsbD 7, u := true } } ∧
    exec .tay s = .next { s with
      y := s.a
      flags := { s.flags with z := (s.a == 0x00), n := s.a.getLsbD 7, u := true } } ∧
    exec .txa s = .next { s with
      a := s.x
      flags := { s.flags with z := (s.x == 0x00), n := s.x.getLsbD 7, u := true } } ∧
    exec .tya s = .next { s with
      a := s.y
      flags := { s.flags with z := (s.y == 0x00), n := s.y.getLsbD 7, u := true } } ∧
    exec .tsx s = .next { s with
      x := s.sp
      flags := { s.flags with z := (s.sp == 0x00), n := s.sp.getLsbD 7, u := true } } ∧
    exec .txs s = .next { s with sp := s.x }

/-! ## The ALU -/

/-- R133, R132: ADC in every mode, with the 9-bit intermediate as an exact sum; D is not read.
Constructors: adcImm, adcZp, adcZpX, adcAbs, adcAbsX, adcAbsY, adcIndX, adcIndY. -/
def Obligations.AdcAddsWithCarry : Prop :=
  HasForms .adc [(0x69, .immediate), (0x65, .zeroPage), (0x75, .zeroPageX),
        (0x6D, .absolute), (0x7D, .absoluteX), (0x79, .absoluteY), (0x61, .indirectX),
        (0x71, .indirectY)] ∧
  ∀ (i : Instr) (s : State), i.mnemonic = .adc →
    ∃ m r, load (resolve i.operand s) s = some m ∧
      r = BitVec.ofNat 8 (s.a.toNat + m.toNat + (if s.flags.c then 1 else 0)) ∧
      exec i s = .next { s with
        a := r
        flags := { s.flags with
          c := decide (256 ≤ s.a.toNat + m.toNat + (if s.flags.c then 1 else 0))
          v := decide (s.a.getLsbD 7 = m.getLsbD 7 ∧ r.getLsbD 7 ≠ s.a.getLsbD 7)
          z := (r == 0x00)
          n := r.getLsbD 7
          u := true } }

/-- R131, R133: V is the signed overflow of the sum that ADC computes, the incoming carry included. -/
def Obligations.AdcOverflowIsSignedOverflow : Prop :=
  ∀ (i : Instr) (s : State) (m : Byte), i.mnemonic = .adc → load (resolve i.operand s) s = some m →
    ∃ t, exec i s = .next t ∧
      (t.flags.v = true ↔
        ¬ (-128 ≤ s.a.toInt + m.toInt + (if s.flags.c then 1 else 0) ∧
           s.a.toInt + m.toInt + (if s.flags.c then 1 else 0) ≤ 127)) ∧
      (t.flags.v = false → t.a.toInt = s.a.toInt + m.toInt + (if s.flags.c then 1 else 0))

/-- R134, R135, R136: the logic instructions in every mode; C and V are unchanged. Constructors:
andImm, andZp, andZpX, andAbs, andAbsX, andAbsY, andIndX, andIndY, oraImm, oraZp, oraZpX, oraAbs,
oraAbsX, oraAbsY, oraIndX, oraIndY, eorImm, eorZp, eorZpX, eorAbs, eorAbsX, eorAbsY, eorIndX,
eorIndY. -/
def Obligations.LogicInstructionsCombineIntoA : Prop :=
  HasForms .and [(0x29, .immediate), (0x25, .zeroPage), (0x35, .zeroPageX),
        (0x2D, .absolute), (0x3D, .absoluteX), (0x39, .absoluteY), (0x21, .indirectX),
        (0x31, .indirectY)] ∧
  HasForms .ora [(0x09, .immediate), (0x05, .zeroPage), (0x15, .zeroPageX),
        (0x0D, .absolute), (0x1D, .absoluteX), (0x19, .absoluteY), (0x01, .indirectX),
        (0x11, .indirectY)] ∧
  HasForms .eor [(0x49, .immediate), (0x45, .zeroPage), (0x55, .zeroPageX),
        (0x4D, .absolute), (0x5D, .absoluteX), (0x59, .absoluteY), (0x41, .indirectX),
        (0x51, .indirectY)] ∧
  ∀ (i : Instr) (s : State), i.mnemonic = .and ∨ i.mnemonic = .ora ∨ i.mnemonic = .eor →
    ∃ m r, load (resolve i.operand s) s = some m ∧
      r = (if i.mnemonic = .and then s.a &&& m
        else if i.mnemonic = .ora then s.a ||| m else s.a ^^^ m) ∧
      exec i s = .next { s with
        a := r
        flags := { s.flags with z := (r == 0x00), n := r.getLsbD 7, u := true } }

/-- R137: ASL A; C is the old bit 7, the result is the double mod 256, V is unchanged. -/
def Obligations.AslShiftsTheAccumulator : Prop :=
  decodedMode .asl 0x0A = some .accumulator ∧
  ∀ s : State, ∃ r, r = BitVec.ofNat 8 (s.a.toNat * 2) ∧
    exec .aslAcc s = .next { s with
      a := r
      flags := { s.flags with
        c := s.a.getLsbD 7, z := (r == 0x00), n := r.getLsbD 7, u := true } }

/-- R138: ASL on memory shifts the byte at its effective address; A is unchanged. Constructors:
aslZp, aslZpX, aslAbs, aslAbsX. -/
def Obligations.AslShiftsAMemoryByte : Prop :=
  HasForms .asl [(0x0A, .accumulator), (0x06, .zeroPage), (0x16, .zeroPageX),
        (0x0E, .absolute), (0x1E, .absoluteX)] ∧
  ∀ (i : Instr) (s : State), i.mnemonic = .asl → i.mode ≠ .accumulator →
    ∃ ea r, resolve i.operand s = .mem ea ∧
      r = BitVec.ofNat 8 ((s.readByte ea).toNat * 2) ∧
      exec i s = .next { s with
        mem := s.mem.write ea.toNat r
        flags := { s.flags with
          c := (s.readByte ea).getLsbD 7, z := (r == 0x00), n := r.getLsbD 7, u := true } }

/-- R139: BIT takes Z from the masked value and N and V from the operand; A, C and U are unchanged.
Constructors: bitZp, bitAbs. -/
def Obligations.BitTestsMemory : Prop :=
  HasForms .bit [(0x24, .zeroPage), (0x2C, .absolute)] ∧
  ∀ (i : Instr) (s : State), i.mnemonic = .bit →
    ∃ m, load (resolve i.operand s) s = some m ∧
      exec i s = .next { s with
        flags := { s.flags with
          z := ((m &&& s.a) == 0x00), n := m.getLsbD 7, v := m.getLsbD 6 } }

/-- R140, R141: INC and DEC on memory wrap mod 256; C and V are unchanged. Constructors: incZp,
incZpX, incAbs, incAbsX, decZp, decZpX, decAbs, decAbsX. -/
def Obligations.IncAndDecChangeAMemoryByte : Prop :=
  HasForms .inc [(0xE6, .zeroPage), (0xF6, .zeroPageX), (0xEE, .absolute),
        (0xFE, .absoluteX)] ∧
  HasForms .dec [(0xC6, .zeroPage), (0xD6, .zeroPageX), (0xCE, .absolute),
        (0xDE, .absoluteX)] ∧
  ∀ (i : Instr) (s : State), i.mnemonic = .inc ∨ i.mnemonic = .dec →
    ∃ ea r, resolve i.operand s = .mem ea ∧
      r = BitVec.ofNat 8 ((s.readByte ea).toNat + if i.mnemonic = .inc then 1 else 255) ∧
      exec i s = .next { s with
        mem := s.mem.write ea.toNat r
        flags := { s.flags with z := (r == 0x00), n := r.getLsbD 7, u := true } }

/-- R142-R145: INX, INY, DEX and DEY wrap mod 256; C and V are unchanged. -/
def Obligations.IndexRegistersCount : Prop :=
  HasForms .inx [(0xE8, .implied)] ∧
  HasForms .iny [(0xC8, .implied)] ∧
  HasForms .dex [(0xCA, .implied)] ∧
  HasForms .dey [(0x88, .implied)] ∧
  ∀ s : State,
    (∃ r, r = BitVec.ofNat 8 (s.x.toNat + 1) ∧
      exec .inx s = .next { s with
        x := r
        flags := { s.flags with z := (r == 0x00), n := r.getLsbD 7, u := true } }) ∧
    (∃ r, r = BitVec.ofNat 8 (s.y.toNat + 1) ∧
      exec .iny s = .next { s with
        y := r
        flags := { s.flags with z := (r == 0x00), n := r.getLsbD 7, u := true } }) ∧
    (∃ r, r = BitVec.ofNat 8 (s.x.toNat + 255) ∧
      exec .dex s = .next { s with
        x := r
        flags := { s.flags with z := (r == 0x00), n := r.getLsbD 7, u := true } }) ∧
    (∃ r, r = BitVec.ofNat 8 (s.y.toNat + 255) ∧
      exec .dey s = .next { s with
        y := r
        flags := { s.flags with z := (r == 0x00), n := r.getLsbD 7, u := true } })

/-! ## Flag instructions and branches -/

/-- R160-R166: each flag instruction writes its flag and changes nothing else. -/
def Obligations.FlagInstructionsWriteOneFlag : Prop :=
  HasForms .sec [(0x38, .implied)] ∧
  HasForms .clc [(0x18, .implied)] ∧
  HasForms .sed [(0xF8, .implied)] ∧
  HasForms .cld [(0xD8, .implied)] ∧
  HasForms .sei [(0x78, .implied)] ∧
  HasForms .cli [(0x58, .implied)] ∧
  HasForms .clv [(0xB8, .implied)] ∧
  ∀ s : State,
    exec .sec s = .next { s with flags := { s.flags with c := true } } ∧
    exec .clc s = .next { s with flags := { s.flags with c := false } } ∧
    exec .sed s = .next { s with flags := { s.flags with d := true } } ∧
    exec .cld s = .next { s with flags := { s.flags with d := false } } ∧
    exec .sei s = .next { s with flags := { s.flags with i := true } } ∧
    exec .cli s = .next { s with flags := { s.flags with i := false } } ∧
    exec .clv s = .next { s with flags := { s.flags with v := false } }

/-- R170-R178: a branch tests one flag; if the test passes PC becomes the target, else it stays at
the next instruction, and nothing else changes. -/
def Obligations.BranchesTestOneFlag : Prop :=
  HasForms .bcc [(0x90, .relative)] ∧
  HasForms .bcs [(0xB0, .relative)] ∧
  HasForms .beq [(0xF0, .relative)] ∧
  HasForms .bne [(0xD0, .relative)] ∧
  HasForms .bmi [(0x30, .relative)] ∧
  HasForms .bpl [(0x10, .relative)] ∧
  HasForms .bvc [(0x50, .relative)] ∧
  HasForms .bvs [(0x70, .relative)] ∧
  ∀ (d : Byte) (s : State), ∃ t, resolve (.relative d) s = .target t ∧
    exec (.bcc d) s = .next { s with pc := if s.flags.c = false then t else s.pc } ∧
    exec (.bcs d) s = .next { s with pc := if s.flags.c = true then t else s.pc } ∧
    exec (.beq d) s = .next { s with pc := if s.flags.z = true then t else s.pc } ∧
    exec (.bne d) s = .next { s with pc := if s.flags.z = false then t else s.pc } ∧
    exec (.bmi d) s = .next { s with pc := if s.flags.n = true then t else s.pc } ∧
    exec (.bpl d) s = .next { s with pc := if s.flags.n = false then t else s.pc } ∧
    exec (.bvc d) s = .next { s with pc := if s.flags.v = false then t else s.pc } ∧
    exec (.bvs d) s = .next { s with pc := if s.flags.v = true then t else s.pc }

/-! ## Frames: what an instruction leaves unchanged -/

/-- R22-R25: an instruction that the tables do not list as writing A, X, Y or S leaves it unchanged. -/
def Obligations.UnlistedInstructionsKeepTheRegisters : Prop :=
  ∀ (i : Instr) (s t : State), exec i s = .next t →
    (i.mnemonic ∉ [.lda, .txa, .tya, .adc, .and, .ora, .eor] → i ≠ .aslAcc → t.a = s.a) ∧
    (i.mnemonic ∉ [.ldx, .tax, .tsx, .inx, .dex] → t.x = s.x) ∧
    (i.mnemonic ∉ [.ldy, .tay, .iny, .dey] → t.y = s.y) ∧
    (i.mnemonic ≠ .txs → t.sp = s.sp)

/-- R28's writers: an instruction that the table does not list as writing a flag leaves it unchanged;
B is written by none. -/
def Obligations.UnlistedInstructionsKeepTheFlags : Prop :=
  ∀ (i : Instr) (s t : State), exec i s = .next t →
    (i.mnemonic ∉ [.lda, .ldx, .ldy, .tax, .tay, .txa, .tya, .tsx, .inc, .dec, .inx, .iny, .dex,
        .dey, .and, .ora, .eor, .asl, .adc, .bit] →
      t.flags.n = s.flags.n ∧ t.flags.z = s.flags.z) ∧
    (i.mnemonic ∉ [.lda, .ldx, .ldy, .tax, .tay, .txa, .tya, .tsx, .inc, .dec, .inx, .iny, .dex,
        .dey, .and, .ora, .eor, .asl, .adc] → t.flags.u = s.flags.u) ∧
    (i.mnemonic ∉ [.adc, .bit, .clv] → t.flags.v = s.flags.v) ∧
    (i.mnemonic ∉ [.adc, .asl, .sec, .clc] → t.flags.c = s.flags.c) ∧
    (i.mnemonic ∉ [.sed, .cld] → t.flags.d = s.flags.d) ∧
    (i.mnemonic ∉ [.sei, .cli] → t.flags.i = s.flags.i) ∧
    t.flags.b = s.flags.b

/-- R43, R47: every byte of memory reads as before but the one at the effective address of a store or
of INC, DEC or ASL on memory. -/
def Obligations.OnlyTheStoredByteChanges : Prop :=
  ∀ (i : Instr) (s t : State), exec i s = .next t →
    (i.mnemonic ∉ [.sta, .stx, .sty, .inc, .dec, .asl] →
      ∀ addr, t.readByte addr = s.readByte addr) ∧
    (i.mode = .accumulator → ∀ addr, t.readByte addr = s.readByte addr) ∧
    ∀ ea, resolve i.operand s = .mem ea → ∀ addr, addr ≠ ea → t.readByte addr = s.readByte addr

/-- R26, R33: after the fetch only a branch writes PC, and only BRK the run state. -/
def Obligations.OnlyBranchesWritePc : Prop :=
  ∀ (i : Instr) (s t : State), exec i s = .next t →
    (i.mnemonic ∉ [.bcc, .bcs, .beq, .bne, .bmi, .bpl, .bvc, .bvs] → t.pc = s.pc) ∧
    (i.mnemonic ≠ .brk → t.run = s.run)

/-! ## What an instruction does not read -/

/-- R22, R25: an instruction not listed as reading A (or S) does the same whatever A (or S) holds,
and keeps it unless it writes it. -/
def Obligations.UnlistedInstructionsDoNotReadAOrS : Prop :=
  ∀ (i : Instr) (s : State) (v : Byte),
    (i.mnemonic ∉ [.sta, .tax, .tay, .adc, .and, .ora, .eor, .bit] → i ≠ .aslAcc →
      exec i (s.setA v) =
        if i.mnemonic ∈ [.lda, .txa, .tya] then exec i s
        else onNext (fun t => t.setA v) (exec i s)) ∧
    (i.mnemonic ≠ .tsx →
      exec i (s.setSp v) =
        if i.mnemonic = .txs then exec i s else onNext (fun t => t.setSp v) (exec i s))

/-- R23, R24: an instruction not listed as reading X (or Y), by its mnemonic or its mode, does the
same whatever X (or Y) holds, and keeps it unless it writes it. -/
def Obligations.UnlistedInstructionsDoNotReadXOrY : Prop :=
  ∀ (i : Instr) (s : State) (v : Byte),
    (i.mnemonic ∉ [.stx, .txa, .txs, .inx, .dex] →
      i.mode ∉ [.zeroPageX, .absoluteX, .indirectX] →
      exec i (s.setX v) =
        if i.mnemonic ∈ [.ldx, .tax, .tsx] then exec i s
        else onNext (fun t => t.setX v) (exec i s)) ∧
    (i.mnemonic ∉ [.sty, .tya, .iny, .dey] →
      i.mode ∉ [.zeroPageY, .absoluteY, .indirectY] →
      exec i (s.setY v) =
        if i.mnemonic ∈ [.ldy, .tay] then exec i s
        else onNext (fun t => t.setY v) (exec i s))

/-- R28, R31: the flags U, B, D and I, which nothing reads, do not influence a step: whatever they
hold, it answers the same but for those flags. -/
def Obligations.UnreadFlagsDoNotInfluenceAStep : Prop :=
  ∀ (s : State) (u b d i : Bool),
    onNext (fun t => t.withUnreadFlags false false false false)
        (step (s.withUnreadFlags u b d i)) =
      onNext (fun t => t.withUnreadFlags false false false false) (step s)

/-! ## Invariants -/

/-- R29, R30, R43: every step keeps the memory in canonical form, U at 1 and B at 0. -/
def Obligations.StepKeepsTheMachineInvariant : Prop :=
  ∀ s t : State, s.Inv → step s = .next t → t.Inv

/-- The state after reset meets the invariant: U is 1 and B is 0 by R220, and its memory is in
canonical form because it lists nothing, which is the model's choice (assumption 1). -/
def Obligations.ResetMeetsTheMachineInvariant : Prop := State.reset.Inv

/-- R29, R30: along a run over any memory image, U is 1 and B is 0. -/
def Obligations.FlagsUAndBAreConstantAlongARun : Prop :=
  ∀ (k : Nat) (s t : State),
    runAfterReset k s = .ended t ∨ runAfterReset k s = .unfinished t →
      t.flags.u = true ∧ t.flags.b = false

/-! ## The bus -/

/-- R43, R94: the memory after a step is the memory before it with the writes of the step's bus
accesses made, in order. -/
def Obligations.MemoryChangesOnlyByBusWrites : Prop :=
  ∀ s t : State, step s = .next t → t.mem = s.mem.afterAccesses (busAccesses s)

/-- R94: the accesses listed are all a step makes. A memory that agrees at the addresses read gives
the same accesses, and the same step in every register, flag and run state. -/
def Obligations.StepSeesMemoryOnlyThroughItsReads : Prop :=
  ∀ (s : State) (m : Memory),
    (∀ addr, BusAccess.read addr ∈ busAccesses s → m.read addr.toNat = s.readByte addr) →
    busAccesses (s.withMemory m) = busAccesses s ∧
    onNext (fun t => t.withMemory []) (step (s.withMemory m)) =
      onNext (fun t => t.withMemory []) (step s)

/-- R94: a step in Running reads its opcode first, makes at most five reads, and then at most one
write, which comes last. -/
def Obligations.TheOneBusWriteComesLast : Prop :=
  ∀ s : State, s.run = .running →
    ∃ (reads : List Word) (writes : List BusAccess),
      busAccesses s = .read s.pc :: reads.map .read ++ writes ∧ reads.length ≤ 4 ∧
      (writes = [] ∨ ∃ addr v, writes = [.write addr v])

/-! ## Assembler syntax -/

/-- R70: assembling the written form of an instruction gives the instruction. For a branch whose
target lies across the top of the address space this rests on the distance being taken mod 65536,
the model's reading (assumption 6). -/
def Obligations.AssemblingTheWrittenFormGivesTheInstruction : Prop :=
  ∀ (i : Instr) (start : Word), assemble i.mnemonic (i.operand.written start) start = some i

/-- R70, R91: a branch assembles to the one displacement whose target it is, and not at all where the
target is out of reach. That the distance is taken mod 65536 is the model's reading (assumption
6). -/
def Obligations.BranchDisplacementReachesItsTarget : Prop :=
  ∀ (start target : Word) (d : Byte),
    branchDisplacement start target = some d ↔ target = start + 2 + d.signExtend 16

/-! ## Runs -/

/-- R228: a run ends at the first step that returns HALT or FATAL: more steps allowed do not change
its end state, which is Halted or Faulted and was reached from a Running one. -/
def Obligations.AnEndedRunStaysEnded : Prop :=
  ∀ (k j : Nat) (s t : State), runFrom k s = .ended t →
    runFrom (k + j) s = .ended t ∧ t.run ≠ .running ∧ s.run = .running

/-- R174, R228: BNE to itself with Z = 0 is a hang: it does not end, and nothing changes. -/
def Obligations.BranchToItselfNeverEnds : Prop :=
  ∀ (k : Nat) (s : State), s.run = .running → s.readByte s.pc = 0xD0 →
    s.readByte (s.pc + 1) = 0xFE → s.flags.z = false → runFrom k s = .unfinished s
end

