-- ==== Sys2Proof/Laws/Memory.lean ====
section
/-! SUPPORT. The laws of memory: what a read gives after a write, and that every memory operation
keeps the canonical form. -/

namespace Sys2Proof.Machine

@[simp] theorem Memory.read_nil (a : Nat) : Memory.read [] a = Config.unlistedByte := rfl

theorem Memory.read_cons (k : Nat) (v : Byte) (m : Memory) (a : Nat) :
    Memory.read ((k, v) :: m) a = if k = a then v else Memory.read m a := rfl

theorem Memory.read_erase (m : Memory) (a b : Nat) :
    (m.erase a).read b = if b = a then Config.unlistedByte else m.read b := by
  induction m with
  | nil => simp [Memory.erase]
  | cons e m ih =>
    obtain ⟨k, v⟩ := e
    by_cases hk : k = a
    · subst hk
      simp only [Memory.erase, if_true, ih, Memory.read_cons]
      by_cases hb : b = k
      · simp [hb]
      · simp [hb, Ne.symm hb]
    · simp only [Memory.erase, if_neg hk, Memory.read_cons, ih]
      by_cases hb : b = a
      · subst hb; simp [hk]
      · simp [hb]

theorem Memory.read_insert (m : Memory) (a b : Nat) (v : Byte) (ha : ∀ w, (a, w) ∉ m) :
    (m.insert a v).read b = if b = a then v else m.read b := by
  induction m with
  | nil => simp [Memory.insert, Memory.read_cons, eq_comm]
  | cons e m ih =>
    obtain ⟨k, x⟩ := e
    have hk : k ≠ a := fun h => ha x (by simp [h])
    by_cases hlt : a < k
    · simp [Memory.insert, hlt, Memory.read_cons, eq_comm]
    · have ih' := ih fun w hw => ha w (List.mem_cons_of_mem _ hw)
      simp only [Memory.insert, if_neg hlt, Memory.read_cons, ih']
      by_cases hb : b = a
      · subst hb; simp [hk]
      · simp [hb]

theorem Memory.not_mem_erase (m : Memory) (a : Nat) (w : Byte) : (a, w) ∉ m.erase a := by
  induction m with
  | nil => simp [Memory.erase]
  | cons e m ih =>
    obtain ⟨k, v⟩ := e
    by_cases hk : k = a
    · simp [Memory.erase, hk, ih]
    · simp [Memory.erase, hk, ih, Ne.symm hk]

/-- A read gives the value last written there, and a write leaves every other address alone. -/
theorem Memory.read_write (m : Memory) (a b : Nat) (v : Byte) :
    (m.write a v).read b = if b = a then v else m.read b := by
  by_cases hv : v = Config.unlistedByte
  · simp [Memory.write, hv, Memory.read_erase]
  · rw [Memory.write, if_neg hv, Memory.read_insert _ _ _ _ (Memory.not_mem_erase m a),
      Memory.read_erase]
    split <;> rfl

theorem Memory.wfFrom_cons (least k : Nat) (v : Byte) (m : Memory) :
    Memory.wfFrom least ((k, v) :: m) = true ↔
      least ≤ k ∧ k < Config.memorySize ∧ v ≠ Config.unlistedByte ∧ Memory.wfFrom (k + 1) m = true := by
  simp [Memory.wfFrom, and_assoc]

theorem Memory.wfFrom_mono {least least' : Nat} {m : Memory} (h : m.wfFrom least = true)
    (hle : least' ≤ least) : m.wfFrom least' = true := by
  cases m with
  | nil => rfl
  | cons e m =>
    obtain ⟨k, v⟩ := e
    rw [Memory.wfFrom_cons] at h ⊢
    exact ⟨hle.trans h.1, h.2⟩

theorem Memory.wfFrom_erase {least : Nat} {m : Memory} (a : Nat) (h : m.wfFrom least = true) :
    (m.erase a).wfFrom least = true := by
  induction m generalizing least with
  | nil => rfl
  | cons e m ih =>
    obtain ⟨k, v⟩ := e
    rw [Memory.wfFrom_cons] at h
    obtain ⟨h1, h2, h3, h4⟩ := h
    by_cases hk : k = a
    · simp only [Memory.erase, if_pos hk]
      exact Memory.wfFrom_mono (ih h4) (by omega)
    · simp only [Memory.erase, if_neg hk, Memory.wfFrom_cons]
      exact ⟨h1, h2, h3, ih h4⟩

theorem Memory.wfFrom_insert {least : Nat} {m : Memory} {a : Nat} {v : Byte}
    (h : m.wfFrom least = true) (hla : least ≤ a) (ha : a < Config.memorySize)
    (hv : v ≠ Config.unlistedByte) (hm : ∀ w, (a, w) ∉ m) : (m.insert a v).wfFrom least = true := by
  induction m generalizing least with
  | nil => exact (Memory.wfFrom_cons ..).2 ⟨hla, ha, hv, rfl⟩
  | cons e m ih =>
    obtain ⟨k, x⟩ := e
    rw [Memory.wfFrom_cons] at h
    obtain ⟨h1, h2, h3, h4⟩ := h
    by_cases hlt : a < k
    · simp only [Memory.insert, if_pos hlt, Memory.wfFrom_cons]
      exact ⟨hla, ha, hv, hlt, h2, h3, h4⟩
    · have hk : k ≠ a := fun e => hm x (by simp [e])
      simp only [Memory.insert, if_neg hlt, Memory.wfFrom_cons]
      exact ⟨h1, h2, h3, ih h4 (by omega) fun w hw => hm w (List.mem_cons_of_mem _ hw)⟩

/-- A write inside the address space keeps the canonical form. -/
theorem Memory.wf_write {m : Memory} (a : Nat) (v : Byte) (h : m.wf = true)
    (ha : a < Config.memorySize) : (m.write a v).wf = true := by
  unfold Memory.write
  split
  · exact Memory.wfFrom_erase a h
  · exact Memory.wfFrom_insert (Memory.wfFrom_erase a h) (Nat.zero_le a) ha ‹_›
      (Memory.not_mem_erase m a)

theorem State.readByte_writeByte (s : State) (a b : Word) (v : Byte) :
    (s.writeByte a v).readByte b = if b = a then v else s.readByte b := by
  simp only [State.readByte, State.writeByte, Memory.read_write, BitVec.toNat_inj]

/-- A byte written on the bus keeps the canonical form. -/
theorem State.wf_writeByte {s : State} (a : Word) (v : Byte) (h : s.mem.wf = true) :
    (s.writeByte a v).mem.wf = true :=
  Memory.wf_write a.toNat v h a.isLt

theorem State.wf_writeBytes {s : State} (a : Word) (bytes : List Byte) (h : s.mem.wf = true) :
    (s.writeBytes a bytes).mem.wf = true := by
  induction bytes generalizing s a with
  | nil => exact h
  | cons v bytes ih => exact ih (a + 1) (State.wf_writeByte a v h)

theorem State.wf_placeInstr {s : State} (bytes : List Byte) (h : s.mem.wf = true) :
    (s.placeInstr bytes).mem.wf = true :=
  State.wf_writeBytes s.pc bytes h

theorem State.wf_resetAction {s : State} (h : s.mem.wf = true) : s.resetAction.mem.wf = true := h

theorem State.wf_reset : State.reset.mem.wf = true := rfl

end Sys2Proof.Machine
end

