-- ==== Sys2Proof/Laws/State.lean ====
section
/-! SUPPORT. One lemma for each field of each update of the state and of the flags. -/

namespace Sys2Proof.Machine

section
variable (s : State) (v : Byte)
@[simp] theorem State.setA_a : (s.setA v).a = v := rfl
@[simp] theorem State.setA_x : (s.setA v).x = s.x := rfl
@[simp] theorem State.setA_y : (s.setA v).y = s.y := rfl
@[simp] theorem State.setA_sp : (s.setA v).sp = s.sp := rfl
@[simp] theorem State.setA_pc : (s.setA v).pc = s.pc := rfl
@[simp] theorem State.setA_flags : (s.setA v).flags = s.flags := rfl
@[simp] theorem State.setA_run : (s.setA v).run = s.run := rfl
@[simp] theorem State.setA_mem : (s.setA v).mem = s.mem := rfl
@[simp] theorem State.setA_readByte (addr : Word) :
    (s.setA v).readByte addr = s.readByte addr := rfl
@[simp] theorem State.setA_readPointer (p : Byte) :
    (s.setA v).readPointer p = s.readPointer p := rfl
end

section
variable (s : State) (v : Byte)
@[simp] theorem State.setX_a : (s.setX v).a = s.a := rfl
@[simp] theorem State.setX_x : (s.setX v).x = v := rfl
@[simp] theorem State.setX_y : (s.setX v).y = s.y := rfl
@[simp] theorem State.setX_sp : (s.setX v).sp = s.sp := rfl
@[simp] theorem State.setX_pc : (s.setX v).pc = s.pc := rfl
@[simp] theorem State.setX_flags : (s.setX v).flags = s.flags := rfl
@[simp] theorem State.setX_run : (s.setX v).run = s.run := rfl
@[simp] theorem State.setX_mem : (s.setX v).mem = s.mem := rfl
@[simp] theorem State.setX_readByte (addr : Word) :
    (s.setX v).readByte addr = s.readByte addr := rfl
@[simp] theorem State.setX_readPointer (p : Byte) :
    (s.setX v).readPointer p = s.readPointer p := rfl
end

section
variable (s : State) (v : Byte)
@[simp] theorem State.setY_a : (s.setY v).a = s.a := rfl
@[simp] theorem State.setY_x : (s.setY v).x = s.x := rfl
@[simp] theorem State.setY_y : (s.setY v).y = v := rfl
@[simp] theorem State.setY_sp : (s.setY v).sp = s.sp := rfl
@[simp] theorem State.setY_pc : (s.setY v).pc = s.pc := rfl
@[simp] theorem State.setY_flags : (s.setY v).flags = s.flags := rfl
@[simp] theorem State.setY_run : (s.setY v).run = s.run := rfl
@[simp] theorem State.setY_mem : (s.setY v).mem = s.mem := rfl
@[simp] theorem State.setY_readByte (addr : Word) :
    (s.setY v).readByte addr = s.readByte addr := rfl
@[simp] theorem State.setY_readPointer (p : Byte) :
    (s.setY v).readPointer p = s.readPointer p := rfl
end

section
variable (s : State) (v : Byte)
@[simp] theorem State.setSp_a : (s.setSp v).a = s.a := rfl
@[simp] theorem State.setSp_x : (s.setSp v).x = s.x := rfl
@[simp] theorem State.setSp_y : (s.setSp v).y = s.y := rfl
@[simp] theorem State.setSp_sp : (s.setSp v).sp = v := rfl
@[simp] theorem State.setSp_pc : (s.setSp v).pc = s.pc := rfl
@[simp] theorem State.setSp_flags : (s.setSp v).flags = s.flags := rfl
@[simp] theorem State.setSp_run : (s.setSp v).run = s.run := rfl
@[simp] theorem State.setSp_mem : (s.setSp v).mem = s.mem := rfl
@[simp] theorem State.setSp_readByte (addr : Word) :
    (s.setSp v).readByte addr = s.readByte addr := rfl
@[simp] theorem State.setSp_readPointer (p : Byte) :
    (s.setSp v).readPointer p = s.readPointer p := rfl
end

section
variable (s : State) (v : Word)
@[simp] theorem State.setPc_a : (s.setPc v).a = s.a := rfl
@[simp] theorem State.setPc_x : (s.setPc v).x = s.x := rfl
@[simp] theorem State.setPc_y : (s.setPc v).y = s.y := rfl
@[simp] theorem State.setPc_sp : (s.setPc v).sp = s.sp := rfl
@[simp] theorem State.setPc_pc : (s.setPc v).pc = v := rfl
@[simp] theorem State.setPc_flags : (s.setPc v).flags = s.flags := rfl
@[simp] theorem State.setPc_run : (s.setPc v).run = s.run := rfl
@[simp] theorem State.setPc_mem : (s.setPc v).mem = s.mem := rfl
@[simp] theorem State.setPc_readByte (addr : Word) :
    (s.setPc v).readByte addr = s.readByte addr := rfl
@[simp] theorem State.setPc_readPointer (p : Byte) :
    (s.setPc v).readPointer p = s.readPointer p := rfl
end

section
variable (s : State) (f : Flags)
@[simp] theorem State.setFlags_a : (s.setFlags f).a = s.a := rfl
@[simp] theorem State.setFlags_x : (s.setFlags f).x = s.x := rfl
@[simp] theorem State.setFlags_y : (s.setFlags f).y = s.y := rfl
@[simp] theorem State.setFlags_sp : (s.setFlags f).sp = s.sp := rfl
@[simp] theorem State.setFlags_pc : (s.setFlags f).pc = s.pc := rfl
@[simp] theorem State.setFlags_flags : (s.setFlags f).flags = f := rfl
@[simp] theorem State.setFlags_run : (s.setFlags f).run = s.run := rfl
@[simp] theorem State.setFlags_mem : (s.setFlags f).mem = s.mem := rfl
@[simp] theorem State.setFlags_readByte (addr : Word) :
    (s.setFlags f).readByte addr = s.readByte addr := rfl
@[simp] theorem State.setFlags_readPointer (p : Byte) :
    (s.setFlags f).readPointer p = s.readPointer p := rfl
end

section
variable (s : State) (r : RunState)
@[simp] theorem State.setRun_a : (s.setRun r).a = s.a := rfl
@[simp] theorem State.setRun_x : (s.setRun r).x = s.x := rfl
@[simp] theorem State.setRun_y : (s.setRun r).y = s.y := rfl
@[simp] theorem State.setRun_sp : (s.setRun r).sp = s.sp := rfl
@[simp] theorem State.setRun_pc : (s.setRun r).pc = s.pc := rfl
@[simp] theorem State.setRun_flags : (s.setRun r).flags = s.flags := rfl
@[simp] theorem State.setRun_run : (s.setRun r).run = r := rfl
@[simp] theorem State.setRun_mem : (s.setRun r).mem = s.mem := rfl
@[simp] theorem State.setRun_readByte (addr : Word) :
    (s.setRun r).readByte addr = s.readByte addr := rfl
@[simp] theorem State.setRun_readPointer (p : Byte) :
    (s.setRun r).readPointer p = s.readPointer p := rfl
end

section
variable (s : State) (addr : Word) (v : Byte)
@[simp] theorem State.writeByte_a : (s.writeByte addr v).a = s.a := rfl
@[simp] theorem State.writeByte_x : (s.writeByte addr v).x = s.x := rfl
@[simp] theorem State.writeByte_y : (s.writeByte addr v).y = s.y := rfl
@[simp] theorem State.writeByte_sp : (s.writeByte addr v).sp = s.sp := rfl
@[simp] theorem State.writeByte_pc : (s.writeByte addr v).pc = s.pc := rfl
@[simp] theorem State.writeByte_flags : (s.writeByte addr v).flags = s.flags := rfl
@[simp] theorem State.writeByte_run : (s.writeByte addr v).run = s.run := rfl
@[simp] theorem State.writeByte_mem : (s.writeByte addr v).mem = s.mem.write addr.toNat v := rfl
end

section
variable (s : State) (v : Byte)
@[simp] theorem State.setZN_a : (s.setZN v).a = s.a := rfl
@[simp] theorem State.setZN_x : (s.setZN v).x = s.x := rfl
@[simp] theorem State.setZN_y : (s.setZN v).y = s.y := rfl
@[simp] theorem State.setZN_sp : (s.setZN v).sp = s.sp := rfl
@[simp] theorem State.setZN_pc : (s.setZN v).pc = s.pc := rfl
@[simp] theorem State.setZN_flags : (s.setZN v).flags = s.flags.setZN v := rfl
@[simp] theorem State.setZN_run : (s.setZN v).run = s.run := rfl
@[simp] theorem State.setZN_mem : (s.setZN v).mem = s.mem := rfl
@[simp] theorem State.setZN_readByte (addr : Word) : (s.setZN v).readByte addr = s.readByte addr := rfl
end

section
variable (f : Flags) (a m v : Byte)
@[simp] theorem Flags.setZN_n : (f.setZN v).n = v.getLsbD 7 := rfl
@[simp] theorem Flags.setZN_v : (f.setZN v).v = f.v := rfl
@[simp] theorem Flags.setZN_u : (f.setZN v).u = true := rfl
@[simp] theorem Flags.setZN_b : (f.setZN v).b = f.b := rfl
@[simp] theorem Flags.setZN_d : (f.setZN v).d = f.d := rfl
@[simp] theorem Flags.setZN_i : (f.setZN v).i = f.i := rfl
@[simp] theorem Flags.setZN_z : (f.setZN v).z = (v == 0) := rfl
@[simp] theorem Flags.setZN_c : (f.setZN v).c = f.c := rfl
@[simp] theorem Flags.adc_n : (f.adc a m).n = (adcResult a m f.c).getLsbD 7 := rfl
@[simp] theorem Flags.adc_v : (f.adc a m).v = adcOverflow a m (adcResult a m f.c) := rfl
@[simp] theorem Flags.adc_u : (f.adc a m).u = true := rfl
@[simp] theorem Flags.adc_b : (f.adc a m).b = f.b := rfl
@[simp] theorem Flags.adc_d : (f.adc a m).d = f.d := rfl
@[simp] theorem Flags.adc_i : (f.adc a m).i = f.i := rfl
@[simp] theorem Flags.adc_z : (f.adc a m).z = (adcResult a m f.c == 0) := rfl
@[simp] theorem Flags.adc_c : (f.adc a m).c = adcCarry a m f.c := rfl
@[simp] theorem Flags.asl_n : (f.asl v).n = (aslResult v).getLsbD 7 := rfl
@[simp] theorem Flags.asl_v : (f.asl v).v = f.v := rfl
@[simp] theorem Flags.asl_u : (f.asl v).u = true := rfl
@[simp] theorem Flags.asl_b : (f.asl v).b = f.b := rfl
@[simp] theorem Flags.asl_d : (f.asl v).d = f.d := rfl
@[simp] theorem Flags.asl_i : (f.asl v).i = f.i := rfl
@[simp] theorem Flags.asl_z : (f.asl v).z = (aslResult v == 0) := rfl
@[simp] theorem Flags.asl_c : (f.asl v).c = v.getLsbD 7 := rfl
@[simp] theorem Flags.bit_n : (f.bit a m).n = m.getLsbD 7 := rfl
@[simp] theorem Flags.bit_v : (f.bit a m).v = m.getLsbD 6 := rfl
@[simp] theorem Flags.bit_u : (f.bit a m).u = f.u := rfl
@[simp] theorem Flags.bit_b : (f.bit a m).b = f.b := rfl
@[simp] theorem Flags.bit_d : (f.bit a m).d = f.d := rfl
@[simp] theorem Flags.bit_i : (f.bit a m).i = f.i := rfl
@[simp] theorem Flags.bit_z : (f.bit a m).z = ((m &&& a) == 0) := rfl
@[simp] theorem Flags.bit_c : (f.bit a m).c = f.c := rfl
end

section
variable (s : State)
@[simp] theorem State.resetAction_a : s.resetAction.a = 0 := rfl
@[simp] theorem State.resetAction_x : s.resetAction.x = 0 := rfl
@[simp] theorem State.resetAction_y : s.resetAction.y = 0 := rfl
@[simp] theorem State.resetAction_sp : s.resetAction.sp = Config.stackPointerReset := rfl
@[simp] theorem State.resetAction_pc : s.resetAction.pc = wordOfBytes (s.readByte Config.resetVectorLow)
        (s.readByte Config.resetVectorHigh) := rfl
@[simp] theorem State.resetAction_flags : s.resetAction.flags = Flags.reset := rfl
@[simp] theorem State.resetAction_run : s.resetAction.run = .running := rfl
@[simp] theorem State.resetAction_mem : s.resetAction.mem = s.mem := rfl
end

end Sys2Proof.Machine
end

