-- ==== Sys2Proof/Laws/Ops.lean ====
section
/-! SUPPORT. One lemma for each shared operation, saying all it can do; a proof cites these and does
not unfold the operation. -/

namespace Sys2Proof

theorem wordOfBytes_toNat (lo hi : Byte) :
    (wordOfBytes lo hi).toNat = hi.toNat * 256 + lo.toNat := by
  have h := lo.isLt
  simp only [wordOfBytes, BitVec.toNat_append, Nat.shiftLeft_eq]
  rw [show hi.toNat * 2 ^ 8 = 2 ^ 8 * hi.toNat by ring, ← Nat.two_pow_add_eq_or_of_lt h]
  ring

theorem wordOfBytes_loByte_hiByte (w : Word) : wordOfBytes (loByte w) (hiByte w) = w := by
  apply BitVec.eq_of_toNat_eq
  rw [wordOfBytes_toNat]
  simp only [loByte, hiByte, BitVec.extractLsb'_toNat, Nat.shiftRight_eq_div_pow]
  have := w.isLt
  omega

theorem loByte_wordOfBytes (lo hi : Byte) : loByte (wordOfBytes lo hi) = lo := by
  apply BitVec.eq_of_toNat_eq
  simp only [loByte, BitVec.extractLsb'_toNat, wordOfBytes_toNat, Nat.shiftRight_eq_div_pow]
  have := lo.isLt
  omega

theorem hiByte_wordOfBytes (lo hi : Byte) : hiByte (wordOfBytes lo hi) = hi := by
  apply BitVec.eq_of_toNat_eq
  simp only [hiByte, BitVec.extractLsb'_toNat, wordOfBytes_toNat, Nat.shiftRight_eq_div_pow]
  have h1 := lo.isLt
  have h2 := hi.isLt
  omega

namespace Machine

variable (s : State)

/-- Raising a condition changes the run state and nothing else. -/
theorem raise_eq (c : Condition) : raise c s = .next { s with run := c.terminal } := rfl

theorem noMove_eq_none_iff : s.noMove = none ↔ s.run = .running := by
  unfold State.noMove
  split <;> simp_all

/-- A step in run state Running is fetch and execute. -/
theorem step_of_running (h : s.run = .running) : step s = fetchExecute s := by
  simp [step, (noMove_eq_none_iff s).2 h]

/-- Only a Running state steps to a next state. -/
theorem running_of_step {t : State} (h : step s = .next t) : s.run = .running := by
  cases hr : s.run <;> simp [step, State.noMove, hr] at h ⊢

theorem fetch8_eq : s.fetch8 = (s.readByte s.pc, s.setPc (s.pc + 1)) := rfl

theorem fetch16_eq :
    s.fetch16 =
      (wordOfBytes (s.readByte s.pc) (s.readByte (s.pc + 1)), s.setPc (s.pc + 1 + 1)) := rfl

/-- Fetching operand bytes changes PC and nothing else. -/
theorem fetchOperand_snd (sh : Shape) : (fetchOperand sh s).2 = s.setPc (fetchOperand sh s).2.pc := by
  cases sh <;> rfl

/-- Fetch and execute, with the fetches written out. -/
theorem fetchExecute_eq :
    fetchExecute s =
      match decodeTable (s.readByte s.pc) with
      | none => raise (.unknownOpcode (s.readByte s.pc) s.pc) (s.setPc (s.pc + 1))
      | some sh =>
        exec (fetchOperand sh (s.setPc (s.pc + 1))).1 (fetchOperand sh (s.setPc (s.pc + 1))).2 := rfl

theorem loadA_eq (v : Byte) : loadA v s = .next { s with a := v, flags := s.flags.setZN v } := rfl

theorem loadX_eq (v : Byte) : loadX v s = .next { s with x := v, flags := s.flags.setZN v } := rfl

theorem loadY_eq (v : Byte) : loadY v s = .next { s with y := v, flags := s.flags.setZN v } := rfl

theorem storeA_eq (ea : Word) :
    storeA ea s = .next { s with mem := s.mem.write ea.toNat s.a } := rfl

theorem storeX_eq (ea : Word) :
    storeX ea s = .next { s with mem := s.mem.write ea.toNat s.x } := rfl

theorem storeY_eq (ea : Word) :
    storeY ea s = .next { s with mem := s.mem.write ea.toNat s.y } := rfl

theorem addA_eq (m : Byte) :
    addA m s =
      .next { s with a := adcResult s.a m s.flags.c, flags := s.flags.adc s.a m } := rfl

theorem andA_eq (m : Byte) :
    andA m s = .next { s with a := s.a &&& m, flags := s.flags.setZN (s.a &&& m) } := rfl

theorem orA_eq (m : Byte) :
    orA m s = .next { s with a := s.a ||| m, flags := s.flags.setZN (s.a ||| m) } := rfl

theorem eorA_eq (m : Byte) :
    eorA m s = .next { s with a := s.a ^^^ m, flags := s.flags.setZN (s.a ^^^ m) } := rfl

theorem aslA_eq :
    aslA s = .next { s with a := aslResult s.a, flags := s.flags.asl s.a } := rfl

theorem aslMem_eq (ea : Word) :
    aslMem ea s =
      .next { s with
        flags := s.flags.asl (s.readByte ea)
        mem := s.mem.write ea.toNat (aslResult (s.readByte ea)) } := rfl

theorem bitA_eq (m : Byte) : bitA m s = .next { s with flags := s.flags.bit s.a m } := rfl

theorem incMem_eq (ea : Word) :
    incMem ea s =
      .next { s with
        flags := s.flags.setZN (incByte (s.readByte ea))
        mem := s.mem.write ea.toNat (incByte (s.readByte ea)) } := rfl

theorem decMem_eq (ea : Word) :
    decMem ea s =
      .next { s with
        flags := s.flags.setZN (decByte (s.readByte ea))
        mem := s.mem.write ea.toNat (decByte (s.readByte ea)) } := rfl

theorem branch_eq (cond : Bool) (d : Byte) :
    branch cond d s = .next { s with pc := if cond then relativeTarget d s else s.pc } := rfl

end Machine

end Sys2Proof
end

