-- ==== Sys2Proof/Laws/Decode.lean ====
section
/-! SUPPORT. The decode table and the encoder, once in each direction, and what a step's fetch gives:
what a proof about encoding or fetching cites. -/

namespace Sys2Proof

/-- What an opcode's shape gives is the instructions of that opcode, with the operand bytes it took. -/
theorem opcode_of_decodeTable {op : Byte} {sh : Shape} : decodeTable op = some sh →
    match sh with
    | .noOperand i => i.opcode = op ∧ i.operand.bytes = []
    | .byteOperand f => ∀ b, (f b).opcode = op ∧ (f b).operand.bytes = [b]
    | .wordOperand f => ∀ w, (f w).opcode = op ∧ (f w).operand.bytes = [loByte w, hiByte w] := by
  intro h
  unfold decodeTable at h
  split at h <;> cases h <;> first | exact ⟨rfl, rfl⟩ | exact fun _ => ⟨rfl, rfl⟩

/-- The table gives an instruction's opcode a shape that the instruction's operand bytes complete to
the instruction. -/
theorem decodeTable_opcode (i : Instr) :
    ∃ sh, decodeTable i.opcode = some sh ∧
      match sh with
      | .noOperand j => j = i ∧ i.operand.bytes = []
      | .byteOperand f => ∃ b, f b = i ∧ i.operand.bytes = [b]
      | .wordOperand f => ∃ w, f w = i ∧ i.operand.bytes = [loByte w, hiByte w] := by
  cases i <;>
    first
      | exact ⟨_, rfl, rfl, rfl⟩
      | exact ⟨_, rfl, _, rfl, rfl⟩

/-- The number of bytes of an encoding is the length of the instruction. -/
theorem length_encode (i : Instr) : (encode i).length = i.length := by cases i <;> rfl

/-- A shape's mnemonic and mode do not depend on the operand. -/
theorem sample_of_opcode (i : Instr) :
    (decodeTable i.opcode).map (fun sh => (sh.sample.mnemonic, sh.sample.mode)) =
      some (i.mnemonic, i.mode) := by
  cases i <;> rfl

namespace Machine

/-- Fetching an operand completes a shape with the bytes at PC, and moves PC past them. -/
theorem fetchOperand_eq (sh : Shape) (s : State) :
    fetchOperand sh s =
      match sh with
      | .noOperand i => (i, s)
      | .byteOperand f => (f (s.readByte s.pc), s.setPc (s.pc + 1))
      | .wordOperand f =>
        (f (wordOfBytes (s.readByte s.pc) (s.readByte (s.pc + 1))), s.setPc (s.pc + 1 + 1)) := by
  cases sh <;> rfl

end Machine

end Sys2Proof
end

