-- ==== Sys2Proof/Laws/Exec.lean ====
section
/-! SUPPORT. `exec` as one function of the mnemonic, the resolved operand and the value loaded from it:
a proof about all 104 instructions needs 40 cases by way of `exec_eq_applyForm`. -/

namespace Sys2Proof.Machine

/-- The effect of a mnemonic on a resolved operand `r` from which `Load` gives `v` (R80, R93). -/
def applyForm (m : Mnemonic) (r : Resolved) (v : Byte) (s : State) : Result :=
  match m, r with
  | .lda, _ => loadA v s
  | .ldx, _ => loadX v s
  | .ldy, _ => loadY v s
  | .sta, .mem ea => storeA ea s
  | .stx, .mem ea => storeX ea s
  | .sty, .mem ea => storeY ea s
  | .tax, _ => execTax s
  | .tay, _ => execTay s
  | .txa, _ => execTxa s
  | .tya, _ => execTya s
  | .tsx, _ => execTsx s
  | .txs, _ => execTxs s
  | .adc, _ => addA v s
  | .and, _ => andA v s
  | .ora, _ => orA v s
  | .eor, _ => eorA v s
  | .asl, .acc => aslA s
  | .asl, .mem ea => .next ((s.writeByte ea (aslResult v)).setFlags (s.flags.asl v))
  | .bit, _ => bitA v s
  | .inc, .mem ea => .next ((s.writeByte ea (incByte v)).setZN (incByte v))
  | .dec, .mem ea => .next ((s.writeByte ea (decByte v)).setZN (decByte v))
  | .inx, _ => execInx s
  | .iny, _ => execIny s
  | .dex, _ => execDex s
  | .dey, _ => execDey s
  | .sec, _ => execSec s
  | .clc, _ => execClc s
  | .sed, _ => execSed s
  | .cld, _ => execCld s
  | .sei, _ => execSei s
  | .cli, _ => execCli s
  | .clv, _ => execClv s
  | .bcc, .target t => .next (s.setPc (if s.flags.c == false then t else s.pc))
  | .bcs, .target t => .next (s.setPc (if s.flags.c == true then t else s.pc))
  | .beq, .target t => .next (s.setPc (if s.flags.z == true then t else s.pc))
  | .bne, .target t => .next (s.setPc (if s.flags.z == false then t else s.pc))
  | .bmi, .target t => .next (s.setPc (if s.flags.n == true then t else s.pc))
  | .bpl, .target t => .next (s.setPc (if s.flags.n == false then t else s.pc))
  | .bvc, .target t => .next (s.setPc (if s.flags.v == false then t else s.pc))
  | .bvs, .target t => .next (s.setPc (if s.flags.v == true then t else s.pc))
  | _, _ => raise .halt s

/-- Every instruction is its mnemonic's effect on its resolved operand. -/
theorem exec_eq_applyForm (i : Instr) (s : State) :
    exec i s =
      applyForm i.mnemonic (resolve i.operand s) ((load (resolve i.operand s) s).getD 0) s := by
  cases i <;> rfl

end Sys2Proof.Machine
end

