-- ==== Sys2Proof/Tests/Slice0.lean ====
section
/-! SUPPORT. Tests of one step or one word each, and a witness for every statement that has hypotheses.
Expected results are those of spec/95_test_vectors.md, whose vector each test names, and of the grid in
spec/30_encoding.md R65. -/

namespace Sys2Proof.Tests

open Sys2Proof.Machine

/-- The default state of spec/95_test_vectors.md: the reset state over zero memory, with bytes laid at
PC and some memory bytes set. -/
def vectorState (pc : Word) (bytes : List Byte) (cells : List (Word × Byte)) : State :=
  cells.foldl (fun s cell => s.writeByte cell.1 cell.2)
    ({ State.reset with pc := pc }.writeBytes pc bytes)

/-- One step answers exactly the state a function gives from the state before. -/
def yields (s : State) (expected : State → State) : Bool :=
  match step s with
  | .next t => decide (t = expected s)
  | .fault _ => false
  | .refused _ => false

/-! ## Well-formedness: R95 refuses each kind of form it does not list -/

theorem test_no_store_immediate : formAdmitted .sta .immediate = false := by decide
theorem test_no_lda_zero_page_y : formAdmitted .lda .zeroPageY = false := by decide
theorem test_no_stx_zero_page_x : formAdmitted .stx .zeroPageX = false := by decide
theorem test_no_inc_accumulator : formAdmitted .inc .accumulator = false := by decide
theorem test_no_bit_immediate : formAdmitted .bit .immediate = false := by decide
theorem test_no_branch_absolute : formAdmitted .bne .absolute = false := by decide
theorem test_no_flag_operand : formAdmitted .sec .immediate = false := by decide
theorem test_every_row_well_formed (i : Instr) : i.wellFormed = true := by cases i <;> rfl

/-! ## Decoding: a word written out from R65's grid for every constructor -/

theorem test_decode_lda :
    decode [0xA1, 0x9C] = .ok (.ldaIndX 0x9C, []) ∧
    decode [0xA5, 0x9C] = .ok (.ldaZp 0x9C, []) ∧
    decode [0xA9, 0x9C] = .ok (.ldaImm 0x9C, []) ∧
    decode [0xAD, 0x34, 0x12] = .ok (.ldaAbs 0x1234, []) ∧
    decode [0xB1, 0x9C] = .ok (.ldaIndY 0x9C, []) ∧
    decode [0xB5, 0x9C] = .ok (.ldaZpX 0x9C, []) ∧
    decode [0xB9, 0x34, 0x12] = .ok (.ldaAbsY 0x1234, []) ∧
    decode [0xBD, 0x34, 0x12] = .ok (.ldaAbsX 0x1234, []) :=
  ⟨rfl, rfl, rfl, rfl, rfl, rfl, rfl, rfl⟩

theorem test_decode_ldx :
    decode [0xA2, 0x9C] = .ok (.ldxImm 0x9C, []) ∧
    decode [0xA6, 0x9C] = .ok (.ldxZp 0x9C, []) ∧
    decode [0xAE, 0x34, 0x12] = .ok (.ldxAbs 0x1234, []) ∧
    decode [0xB6, 0x9C] = .ok (.ldxZpY 0x9C, []) ∧
    decode [0xBE, 0x34, 0x12] = .ok (.ldxAbsY 0x1234, []) :=
  ⟨rfl, rfl, rfl, rfl, rfl⟩

theorem test_decode_ldy :
    decode [0xA0, 0x9C] = .ok (.ldyImm 0x9C, []) ∧
    decode [0xA4, 0x9C] = .ok (.ldyZp 0x9C, []) ∧
    decode [0xAC, 0x34, 0x12] = .ok (.ldyAbs 0x1234, []) ∧
    decode [0xB4, 0x9C] = .ok (.ldyZpX 0x9C, []) ∧
    decode [0xBC, 0x34, 0x12] = .ok (.ldyAbsX 0x1234, []) :=
  ⟨rfl, rfl, rfl, rfl, rfl⟩

theorem test_decode_sta :
    decode [0x81, 0x9C] = .ok (.staIndX 0x9C, []) ∧
    decode [0x85, 0x9C] = .ok (.staZp 0x9C, []) ∧
    decode [0x8D, 0x34, 0x12] = .ok (.staAbs 0x1234, []) ∧
    decode [0x91, 0x9C] = .ok (.staIndY 0x9C, []) ∧
    decode [0x95, 0x9C] = .ok (.staZpX 0x9C, []) ∧
    decode [0x99, 0x34, 0x12] = .ok (.staAbsY 0x1234, []) ∧
    decode [0x9D, 0x34, 0x12] = .ok (.staAbsX 0x1234, []) :=
  ⟨rfl, rfl, rfl, rfl, rfl, rfl, rfl⟩

theorem test_decode_stx_sty :
    decode [0x86, 0x9C] = .ok (.stxZp 0x9C, []) ∧
    decode [0x8E, 0x34, 0x12] = .ok (.stxAbs 0x1234, []) ∧
    decode [0x96, 0x9C] = .ok (.stxZpY 0x9C, []) ∧
    decode [0x84, 0x9C] = .ok (.styZp 0x9C, []) ∧
    decode [0x8C, 0x34, 0x12] = .ok (.styAbs 0x1234, []) ∧
    decode [0x94, 0x9C] = .ok (.styZpX 0x9C, []) :=
  ⟨rfl, rfl, rfl, rfl, rfl, rfl⟩

theorem test_decode_tax_group :
    decode [0xAA] = .ok (.tax, []) ∧
    decode [0xA8] = .ok (.tay, []) ∧
    decode [0x8A] = .ok (.txa, []) ∧
    decode [0x98] = .ok (.tya, []) ∧
    decode [0xBA] = .ok (.tsx, []) ∧
    decode [0x9A] = .ok (.txs, []) :=
  ⟨rfl, rfl, rfl, rfl, rfl, rfl⟩

theorem test_decode_adc :
    decode [0x61, 0x9C] = .ok (.adcIndX 0x9C, []) ∧
    decode [0x65, 0x9C] = .ok (.adcZp 0x9C, []) ∧
    decode [0x69, 0x9C] = .ok (.adcImm 0x9C, []) ∧
    decode [0x6D, 0x34, 0x12] = .ok (.adcAbs 0x1234, []) ∧
    decode [0x71, 0x9C] = .ok (.adcIndY 0x9C, []) ∧
    decode [0x75, 0x9C] = .ok (.adcZpX 0x9C, []) ∧
    decode [0x79, 0x34, 0x12] = .ok (.adcAbsY 0x1234, []) ∧
    decode [0x7D, 0x34, 0x12] = .ok (.adcAbsX 0x1234, []) :=
  ⟨rfl, rfl, rfl, rfl, rfl, rfl, rfl, rfl⟩

theorem test_decode_and :
    decode [0x21, 0x9C] = .ok (.andIndX 0x9C, []) ∧
    decode [0x25, 0x9C] = .ok (.andZp 0x9C, []) ∧
    decode [0x29, 0x9C] = .ok (.andImm 0x9C, []) ∧
    decode [0x2D, 0x34, 0x12] = .ok (.andAbs 0x1234, []) ∧
    decode [0x31, 0x9C] = .ok (.andIndY 0x9C, []) ∧
    decode [0x35, 0x9C] = .ok (.andZpX 0x9C, []) ∧
    decode [0x39, 0x34, 0x12] = .ok (.andAbsY 0x1234, []) ∧
    decode [0x3D, 0x34, 0x12] = .ok (.andAbsX 0x1234, []) :=
  ⟨rfl, rfl, rfl, rfl, rfl, rfl, rfl, rfl⟩

theorem test_decode_ora :
    decode [0x01, 0x9C] = .ok (.oraIndX 0x9C, []) ∧
    decode [0x05, 0x9C] = .ok (.oraZp 0x9C, []) ∧
    decode [0x09, 0x9C] = .ok (.oraImm 0x9C, []) ∧
    decode [0x0D, 0x34, 0x12] = .ok (.oraAbs 0x1234, []) ∧
    decode [0x11, 0x9C] = .ok (.oraIndY 0x9C, []) ∧
    decode [0x15, 0x9C] = .ok (.oraZpX 0x9C, []) ∧
    decode [0x19, 0x34, 0x12] = .ok (.oraAbsY 0x1234, []) ∧
    decode [0x1D, 0x34, 0x12] = .ok (.oraAbsX 0x1234, []) :=
  ⟨rfl, rfl, rfl, rfl, rfl, rfl, rfl, rfl⟩

theorem test_decode_eor :
    decode [0x41, 0x9C] = .ok (.eorIndX 0x9C, []) ∧
    decode [0x45, 0x9C] = .ok (.eorZp 0x9C, []) ∧
    decode [0x49, 0x9C] = .ok (.eorImm 0x9C, []) ∧
    decode [0x4D, 0x34, 0x12] = .ok (.eorAbs 0x1234, []) ∧
    decode [0x51, 0x9C] = .ok (.eorIndY 0x9C, []) ∧
    decode [0x55, 0x9C] = .ok (.eorZpX 0x9C, []) ∧
    decode [0x59, 0x34, 0x12] = .ok (.eorAbsY 0x1234, []) ∧
    decode [0x5D, 0x34, 0x12] = .ok (.eorAbsX 0x1234, []) :=
  ⟨rfl, rfl, rfl, rfl, rfl, rfl, rfl, rfl⟩

theorem test_decode_asl_bit :
    decode [0x06, 0x9C] = .ok (.aslZp 0x9C, []) ∧
    decode [0x0A] = .ok (.aslAcc, []) ∧
    decode [0x0E, 0x34, 0x12] = .ok (.aslAbs 0x1234, []) ∧
    decode [0x16, 0x9C] = .ok (.aslZpX 0x9C, []) ∧
    decode [0x1E, 0x34, 0x12] = .ok (.aslAbsX 0x1234, []) ∧
    decode [0x24, 0x9C] = .ok (.bitZp 0x9C, []) ∧
    decode [0x2C, 0x34, 0x12] = .ok (.bitAbs 0x1234, []) :=
  ⟨rfl, rfl, rfl, rfl, rfl, rfl, rfl⟩

theorem test_decode_inc_dec :
    decode [0xE6, 0x9C] = .ok (.incZp 0x9C, []) ∧
    decode [0xEE, 0x34, 0x12] = .ok (.incAbs 0x1234, []) ∧
    decode [0xF6, 0x9C] = .ok (.incZpX 0x9C, []) ∧
    decode [0xFE, 0x34, 0x12] = .ok (.incAbsX 0x1234, []) ∧
    decode [0xC6, 0x9C] = .ok (.decZp 0x9C, []) ∧
    decode [0xCE, 0x34, 0x12] = .ok (.decAbs 0x1234, []) ∧
    decode [0xD6, 0x9C] = .ok (.decZpX 0x9C, []) ∧
    decode [0xDE, 0x34, 0x12] = .ok (.decAbsX 0x1234, []) :=
  ⟨rfl, rfl, rfl, rfl, rfl, rfl, rfl, rfl⟩

theorem test_decode_inx_group :
    decode [0xE8] = .ok (.inx, []) ∧
    decode [0xC8] = .ok (.iny, []) ∧
    decode [0xCA] = .ok (.dex, []) ∧
    decode [0x88] = .ok (.dey, []) :=
  ⟨rfl, rfl, rfl, rfl⟩

theorem test_decode_sec_group :
    decode [0x38] = .ok (.sec, []) ∧
    decode [0x18] = .ok (.clc, []) ∧
    decode [0xF8] = .ok (.sed, []) ∧
    decode [0xD8] = .ok (.cld, []) ∧
    decode [0x78] = .ok (.sei, []) ∧
    decode [0x58] = .ok (.cli, []) ∧
    decode [0xB8] = .ok (.clv, []) :=
  ⟨rfl, rfl, rfl, rfl, rfl, rfl, rfl⟩

theorem test_decode_bcc_group :
    decode [0x90, 0x9C] = .ok (.bcc 0x9C, []) ∧
    decode [0xB0, 0x9C] = .ok (.bcs 0x9C, []) ∧
    decode [0xF0, 0x9C] = .ok (.beq 0x9C, []) ∧
    decode [0xD0, 0x9C] = .ok (.bne 0x9C, []) ∧
    decode [0x30, 0x9C] = .ok (.bmi 0x9C, []) ∧
    decode [0x10, 0x9C] = .ok (.bpl 0x9C, []) ∧
    decode [0x50, 0x9C] = .ok (.bvc 0x9C, []) ∧
    decode [0x70, 0x9C] = .ok (.bvs 0x9C, []) ∧
    decode [0x00] = .ok (.brk, []) :=
  ⟨rfl, rfl, rfl, rfl, rfl, rfl, rfl, rfl, rfl⟩

theorem test_decode_refuses_by_name :
    decode [0xFF, 0x00] = .error (.unknownOpcode 0xFF) ∧
    decode [0x4C, 0x00, 0x80] = .error (.unknownOpcode 0x4C) ∧
    decode [0x8D, 0x00] = .error (.missingOperand 0x8D) ∧ decode [] = .error .noBytes :=
  ⟨rfl, rfl, rfl, rfl⟩

theorem test_table_word :
    decodeTableWord 8 0xA9 = some (.ldaImm 0x00) ∧
    decodeTableWord 16 0x10A9 = some (.ldaImm 0x10) ∧
    decodeTableWord 24 0x03008D = some (.staAbs 0x0300) ∧
    decodeTableWord 8 0xFF = none :=
  ⟨rfl, rfl, rfl, rfl⟩

theorem test_fetch_word_from_reset :
    yields (State.reset.withFetchWord 16 0x10A9) (fun s => { s with pc := 0x0002, a := 0x10 }) = true := by
  decide

/-! ## One step: the vectors of spec/95_test_vectors.md -/

/-- AM1, AM12. -/
theorem test_step_ldaImm :
    yields (vectorState 0x8000 [0xA9, 0x00] [])
        (fun s => { s with pc := 0x8002, a := 0x00, flags := { s.flags with z := true } }) = true ∧
    yields (vectorState 0xFFFF [0xA9, 0x77] [(0xFFFF, 0xA9), (0x0000, 0x77)])
        (fun s => { s with pc := 0x0001, a := 0x77 }) = true := ⟨by decide, by decide⟩

/-- AM2. -/
theorem test_step_ldaZp :
    yields (vectorState 0x8000 [0xA5, 0x10] [(0x0010, 0x80)])
        (fun s => { s with pc := 0x8002, a := 0x80, flags := { s.flags with n := true } }) = true := by decide

/-- AM3. -/
theorem test_step_ldaZpX :
    yields ({ vectorState 0x8000 [0xB5, 0xFE] [(0x0003, 0x42)] with x := 0x05 })
        (fun s => { s with pc := 0x8002, a := 0x42 }) = true := by decide

/-- AM4. -/
theorem test_step_ldxZpY :
    yields ({ vectorState 0x8000 [0xB6, 0xF8] [(0x0008, 0x99)] with y := 0x10 })
        (fun s => { s with pc := 0x8002, x := 0x99, flags := { s.flags with n := true } }) = true := by decide

/-- AM5, AM13. -/
theorem test_step_ldaAbs :
    yields (vectorState 0x8000 [0xAD, 0x34, 0x12] [(0x1234, 0x01)])
        (fun s => { s with pc := 0x8003, a := 0x01 }) = true ∧
    yields (vectorState 0xFFFE [0xAD, 0x00, 0x90] [(0xFFFE, 0xAD), (0xFFFF, 0x00), (0x0000, 0x90), (0x9000, 0x01)])
        (fun s => { s with pc := 0x0001, a := 0x01 }) = true := ⟨by decide, by decide⟩

/-- AM6. -/
theorem test_step_ldaAbsX :
    yields ({ vectorState 0x8000 [0xBD, 0xFF, 0xFF] [(0x0000, 0x55)] with x := 0x01 })
        (fun s => { s with pc := 0x8003, a := 0x55 }) = true := by decide

/-- AM7. -/
theorem test_step_ldaAbsY :
    yields ({ vectorState 0x8000 [0xB9, 0x01, 0x80] [(0x8100, 0x7F)] with y := 0xFF })
        (fun s => { s with pc := 0x8003, a := 0x7F }) = true := by decide

/-- AM8, AM9. -/
theorem test_step_ldaIndX :
    yields ({ vectorState 0x8000 [0xA1, 0xFE] [(0x00FF, 0x34), (0x0000, 0x12), (0x1234, 0xAB)] with x := 0x01 })
        (fun s => { s with pc := 0x8002, a := 0xAB, flags := { s.flags with n := true } }) = true ∧
    yields ({ vectorState 0x8000 [0xA1, 0xFF] [(0x0001, 0x00), (0x0002, 0x90)] with x := 0x02 })
        (fun s => { s with pc := 0x8002, a := 0x00, flags := { s.flags with z := true } }) = true := ⟨by decide, by decide⟩

/-- AM10, AM11. -/
theorem test_step_ldaIndY :
    yields ({ vectorState 0x8000 [0xB1, 0xFF] [(0x00FF, 0x00), (0x0000, 0x03), (0x0305, 0x66)] with y := 0x05 })
        (fun s => { s with pc := 0x8002, a := 0x66 }) = true ∧
    yields ({ vectorState 0x8000 [0xB1, 0x20] [(0x0020, 0xFF), (0x0021, 0xFF), (0x0001, 0xC3)] with y := 0x02 })
        (fun s => { s with pc := 0x8002, a := 0xC3, flags := { s.flags with n := true } }) = true := ⟨by decide, by decide⟩

/-- AM14. -/
theorem test_step_adcAbsX :
    yields ({ vectorState 0x8000 [0x7D, 0xF0, 0x10] [(0x1110, 0x05)] with a := 0x10, x := 0x20 })
        (fun s => { s with pc := 0x8003, a := 0x15 }) = true := by decide

/-- AM15. -/
theorem test_step_oraIndY :
    yields ({ vectorState 0x8000 [0x11, 0x80] [(0x0080, 0x00), (0x0081, 0x04), (0x0401, 0x00)] with y := 0x01 })
        (fun s => { s with pc := 0x8002, a := 0x00, flags := { s.flags with z := true } }) = true := by decide

/-- LST1. -/
theorem test_step_ldxImm :
    yields ({ vectorState 0x8000 [0xA2, 0x00] [] with x := 0x05, flags := { Flags.reset with n := true } })
        (fun s => { s with pc := 0x8002, x := 0x00, flags := { s.flags with z := true, n := false } }) = true := by decide

/-- LST2. -/
theorem test_step_ldyAbsX :
    yields ({ vectorState 0x8000 [0xBC, 0xF0, 0x20] [(0x2110, 0xFE)] with x := 0x20 })
        (fun s => { s with pc := 0x8003, y := 0xFE, flags := { s.flags with n := true } }) = true := by decide

/-- LST3. -/
theorem test_step_staIndX :
    yields ({ vectorState 0x8000 [0x81, 0x40] [(0x0044, 0x00), (0x0045, 0x06)] with a := 0x5A, x := 0x04, flags := { Flags.reset with z := true, n := true } })
        (fun s => { (s.writeByte 0x0600 0x5A) with pc := 0x8002, flags := { s.flags with z := true, n := true } }) = true := by decide

/-- LST4. -/
theorem test_step_staIndY :
    yields ({ vectorState 0x8000 [0x91, 0x40] [(0x0040, 0xF8), (0x0041, 0x06)] with a := 0x11, y := 0x10 })
        (fun s => { (s.writeByte 0x0708 0x11) with pc := 0x8002 }) = true := by decide

/-- LST5. -/
theorem test_step_staAbsY :
    yields ({ vectorState 0x8000 [0x99, 0xFF, 0xFF] [] with a := 0x3C, y := 0x03 })
        (fun s => { (s.writeByte 0x0002 0x3C) with pc := 0x8003 }) = true := by decide

/-- LST6. -/
theorem test_step_stxZpY :
    yields ({ vectorState 0x8000 [0x96, 0xFF] [] with x := 0x07, y := 0x02 })
        (fun s => { (s.writeByte 0x0001 0x07) with pc := 0x8002 }) = true := by decide

/-- LST7. -/
theorem test_step_styZpX :
    yields ({ vectorState 0x8000 [0x94, 0xF0] [] with x := 0x20, y := 0x42 })
        (fun s => { (s.writeByte 0x0010 0x42) with pc := 0x8002 }) = true := by decide

/-- LST8. -/
theorem test_step_styAbs :
    yields ({ vectorState 0x8000 [0x8C, 0x00, 0x02] [] with y := 0x42 })
        (fun s => { (s.writeByte 0x0200 0x42) with pc := 0x8003 }) = true := by decide

/-- LST9. -/
theorem test_step_tax :
    yields ({ vectorState 0x8000 [0xAA] [] with a := 0x80 })
        (fun s => { s with pc := 0x8001, x := 0x80, flags := { s.flags with n := true } }) = true := by decide

/-- LST10. -/
theorem test_step_tay :
    yields ({ vectorState 0x8000 [0xA8] [] with a := 0x00, y := 0x33 })
        (fun s => { s with pc := 0x8001, y := 0x00, flags := { s.flags with z := true } }) = true := by decide

/-- LST11. -/
theorem test_step_txa :
    yields ({ vectorState 0x8000 [0x8A] [] with x := 0xFF })
        (fun s => { s with pc := 0x8001, a := 0xFF, flags := { s.flags with n := true } }) = true := by decide

/-- LST12. -/
theorem test_step_tya :
    yields ({ vectorState 0x8000 [0x98] [] with a := 0x80, y := 0x01, flags := { Flags.reset with n := true } })
        (fun s => { s with pc := 0x8001, a := 0x01, flags := { s.flags with n := false } }) = true := by decide

/-- LST13. -/
theorem test_step_tsx :
    yields ({ vectorState 0x8000 [0xBA] [] with sp := 0xFD })
        (fun s => { s with pc := 0x8001, x := 0xFD, flags := { s.flags with n := true } }) = true := by decide

/-- LST14. -/
theorem test_step_txs :
    yields ({ vectorState 0x8000 [0x9A] [] with x := 0x00, flags := { Flags.reset with z := false } })
        (fun s => { s with pc := 0x8001, sp := 0x00, flags := { s.flags with z := false } }) = true := by decide

/-- LST15. -/
theorem test_step_staAbs :
    yields ({ vectorState 0x8000 [0x8D, 0x01, 0x80] [(0x8001, 0x01)] with a := 0x00 })
        (fun s => { (s.writeByte 0x8001 0x00) with pc := 0x8003 }) = true := by decide

/-- ALU1, ALU2, ALU3, ALU4, ALU5, ALU7. -/
theorem test_step_adcImm :
    yields ({ vectorState 0x8000 [0x69, 0x00] [] with a := 0x7F, flags := { Flags.reset with c := true } })
        (fun s => { s with pc := 0x8002, a := 0x80, flags := { s.flags with c := false, v := true, n := true, z := false } }) = true ∧
    yields ({ vectorState 0x8000 [0x69, 0x80] [] with a := 0x80, flags := { Flags.reset with c := false } })
        (fun s => { s with pc := 0x8002, a := 0x00, flags := { s.flags with c := true, v := true, z := true, n := false } }) = true ∧
    yields ({ vectorState 0x8000 [0x69, 0xFF] [] with a := 0xFF, flags := { Flags.reset with c := true } })
        (fun s => { s with pc := 0x8002, a := 0xFF, flags := { s.flags with c := true, v := false, n := true, z := false } }) = true ∧
    yields ({ vectorState 0x8000 [0x69, 0x01] [] with a := 0x09, flags := { Flags.reset with d := true } })
        (fun s => { s with pc := 0x8002, a := 0x0A, flags := { s.flags with c := false, v := false, d := true } }) = true ∧
    yields ({ vectorState 0x8000 [0x69, 0x00] [] with a := 0x00, flags := { Flags.reset with c := true } })
        (fun s => { s with pc := 0x8002, a := 0x01, flags := { s.flags with c := false, z := false } }) = true ∧
    yields ({ vectorState 0x8000 [0x69, 0x01] [] with a := 0x01, flags := { Flags.reset with c := false } })
        (fun s => { s with pc := 0x8002, a := 0x02, flags := { s.flags with c := false, v := false, n := false, z := false } }) = true := ⟨by decide, by decide, by decide, by decide, by decide, by decide⟩

/-- ALU6. -/
theorem test_step_adcZp :
    yields ({ vectorState 0x8000 [0x65, 0x10] [(0x0010, 0x90)] with a := 0xD0 })
        (fun s => { s with pc := 0x8002, a := 0x60, flags := { s.flags with c := true, v := true, n := false, z := false } }) = true := by decide

/-- ALU8, ALU9. -/
theorem test_step_andImm :
    yields ({ vectorState 0x8000 [0x29, 0x0F] [] with a := 0xF0 })
        (fun s => { s with pc := 0x8002, a := 0x00, flags := { s.flags with z := true } }) = true ∧
    yields ({ vectorState 0x8000 [0x29, 0x81] [] with a := 0xC3, flags := { Flags.reset with c := true, v := true } })
        (fun s => { s with pc := 0x8002, a := 0x81, flags := { s.flags with n := true, c := true, v := true } }) = true := ⟨by decide, by decide⟩

/-- ALU10. -/
theorem test_step_oraImm :
    yields ({ vectorState 0x8000 [0x09, 0x80] [] with a := 0x01 })
        (fun s => { s with pc := 0x8002, a := 0x81, flags := { s.flags with n := true } }) = true := by decide

/-- ALU11. -/
theorem test_step_oraZp :
    yields ({ vectorState 0x8000 [0x05, 0x10] [(0x0010, 0x00)] with a := 0x00 })
        (fun s => { s with pc := 0x8002, a := 0x00, flags := { s.flags with z := true } }) = true := by decide

/-- ALU12, ALU13. -/
theorem test_step_eorImm :
    yields ({ vectorState 0x8000 [0x49, 0xA5] [] with a := 0xA5 })
        (fun s => { s with pc := 0x8002, a := 0x00, flags := { s.flags with z := true } }) = true ∧
    yields ({ vectorState 0x8000 [0x49, 0xFF] [] with a := 0x3C })
        (fun s => { s with pc := 0x8002, a := 0xC3, flags := { s.flags with n := true } }) = true := ⟨by decide, by decide⟩

/-- ALU14, ALU15. -/
theorem test_step_aslAcc :
    yields ({ vectorState 0x8000 [0x0A] [] with a := 0x80 })
        (fun s => { s with pc := 0x8001, a := 0x00, flags := { s.flags with c := true, z := true, n := false } }) = true ∧
    yields ({ vectorState 0x8000 [0x0A] [] with a := 0x41, flags := { Flags.reset with c := true } })
        (fun s => { s with pc := 0x8001, a := 0x82, flags := { s.flags with c := false, n := true } }) = true := ⟨by decide, by decide⟩

/-- ALU16. -/
theorem test_step_aslZp :
    yields (vectorState 0x8000 [0x06, 0x10] [(0x0010, 0xC0)])
        (fun s => { (s.writeByte 0x0010 0x80) with pc := 0x8002, flags := { s.flags with c := true, n := true } }) = true := by decide

/-- ALU17. -/
theorem test_step_aslAbsX :
    yields ({ vectorState 0x8000 [0x1E, 0x00, 0x02] [(0x0201, 0x01)] with x := 0x01 })
        (fun s => { (s.writeByte 0x0201 0x02) with pc := 0x8003, flags := { s.flags with c := false, n := false, z := false } }) = true := by decide

/-- ALU18. -/
theorem test_step_bitZp :
    yields ({ vectorState 0x8000 [0x24, 0x10] [(0x0010, 0xC0)] with a := 0x01 })
        (fun s => { s with pc := 0x8002, flags := { s.flags with z := true, n := true, v := true } }) = true := by decide

/-- ALU19. -/
theorem test_step_bitAbs :
    yields ({ vectorState 0x8000 [0x2C, 0x00, 0x02] [(0x0200, 0x41)] with a := 0x40, flags := { Flags.reset with n := true } })
        (fun s => { s with pc := 0x8003, flags := { s.flags with z := false, n := false, v := true } }) = true := by decide

/-- ALU20. -/
theorem test_step_incZp :
    yields (vectorState 0x8000 [0xE6, 0x10] [(0x0010, 0xFF)])
        (fun s => { (s.writeByte 0x0010 0x00) with pc := 0x8002, flags := { s.flags with z := true, n := false } }) = true := by decide

/-- ALU21. -/
theorem test_step_incAbs :
    yields (vectorState 0x8000 [0xEE, 0x00, 0x03] [(0x0300, 0x7F)])
        (fun s => { (s.writeByte 0x0300 0x80) with pc := 0x8003, flags := { s.flags with n := true } }) = true := by decide

/-- ALU22. -/
theorem test_step_decZp :
    yields (vectorState 0x8000 [0xC6, 0x10] [(0x0010, 0x00)])
        (fun s => { (s.writeByte 0x0010 0xFF) with pc := 0x8002, flags := { s.flags with n := true } }) = true := by decide

/-- ALU23. -/
theorem test_step_decZpX :
    yields ({ vectorState 0x8000 [0xD6, 0xFF] [(0x0010, 0x01)] with x := 0x11 })
        (fun s => { (s.writeByte 0x0010 0x00) with pc := 0x8002, flags := { s.flags with z := true } }) = true := by decide

/-- ALU24. -/
theorem test_step_inx :
    yields ({ vectorState 0x8000 [0xE8] [] with x := 0xFF })
        (fun s => { s with pc := 0x8001, x := 0x00, flags := { s.flags with z := true } }) = true := by decide

/-- ALU25. -/
theorem test_step_iny :
    yields ({ vectorState 0x8000 [0xC8] [] with y := 0x7F })
        (fun s => { s with pc := 0x8001, y := 0x80, flags := { s.flags with n := true } }) = true := by decide

/-- ALU26. -/
theorem test_step_dex :
    yields ({ vectorState 0x8000 [0xCA] [] with x := 0x00 })
        (fun s => { s with pc := 0x8001, x := 0xFF, flags := { s.flags with n := true } }) = true := by decide

/-- ALU27. -/
theorem test_step_dey :
    yields ({ vectorState 0x8000 [0x88] [] with y := 0x01, flags := { Flags.reset with c := true } })
        (fun s => { s with pc := 0x8001, y := 0x00, flags := { s.flags with z := true, c := true } }) = true := by decide

/-- FL1, FL8. -/
theorem test_step_sec :
    yields (vectorState 0x8000 [0x38] [])
        (fun s => { s with pc := 0x8001, flags := { s.flags with c := true } }) = true ∧
    yields ({ vectorState 0x8000 [0x38] [] with flags := { Flags.reset with c := true } })
        (fun s => { s with pc := 0x8001 }) = true := ⟨by decide, by decide⟩

/-- FL2. -/
theorem test_step_clc :
    yields ({ vectorState 0x8000 [0x18] [] with flags := { Flags.reset with c := true, z := true } })
        (fun s => { s with pc := 0x8001, flags := { s.flags with c := false, z := true } }) = true := by decide

/-- FL3. -/
theorem test_step_sed :
    yields (vectorState 0x8000 [0xF8] [])
        (fun s => { s with pc := 0x8001, flags := { s.flags with d := true } }) = true := by decide

/-- FL4. -/
theorem test_step_cld :
    yields ({ vectorState 0x8000 [0xD8] [] with flags := { Flags.reset with d := true } })
        (fun s => { s with pc := 0x8001, flags := { s.flags with d := false } }) = true := by decide

/-- FL5. -/
theorem test_step_sei :
    yields (vectorState 0x8000 [0x78] [])
        (fun s => { s with pc := 0x8001, flags := { s.flags with i := true } }) = true := by decide

/-- FL6. -/
theorem test_step_cli :
    yields ({ vectorState 0x8000 [0x58] [] with flags := { Flags.reset with i := true } })
        (fun s => { s with pc := 0x8001, flags := { s.flags with i := false } }) = true := by decide

/-- FL7. -/
theorem test_step_clv :
    yields ({ vectorState 0x8000 [0xB8] [] with flags := { Flags.reset with v := true, n := true } })
        (fun s => { s with pc := 0x8001, flags := { s.flags with v := false, n := true } }) = true := by decide

/-- BR1, BR2. -/
theorem test_step_bcc :
    yields ({ vectorState 0x8000 [0x90, 0x05] [] with flags := { Flags.reset with c := true } })
        (fun s => { s with pc := 0x8002 }) = true ∧
    yields ({ vectorState 0x8000 [0x90, 0x05] [] with flags := { Flags.reset with c := false } })
        (fun s => { s with pc := 0x8007 }) = true := ⟨by decide, by decide⟩

/-- BR3. -/
theorem test_step_bcs :
    yields ({ vectorState 0x8000 [0xB0, 0x80] [] with flags := { Flags.reset with c := true } })
        (fun s => { s with pc := 0x7F82 }) = true := by decide

/-- BR4. -/
theorem test_step_beq :
    yields ({ vectorState 0xFFFC [0xF0, 0x04] [] with flags := { Flags.reset with z := true } })
        (fun s => { s with pc := 0x0002 }) = true := by decide

/-- BR5, BR6. -/
theorem test_step_bne :
    yields ({ vectorState 0x8008 [0xD0, 0xFA] [] with flags := { Flags.reset with z := false } })
        (fun s => { s with pc := 0x8004 }) = true ∧
    yields ({ vectorState 0x8000 [0xD0, 0xFE] [] with flags := { Flags.reset with z := false } })
        (fun s => { s with pc := 0x8000 }) = true := ⟨by decide, by decide⟩

/-- BR7, BR8, BR13. -/
theorem test_step_bmi :
    yields ({ vectorState 0x9000 [0x30, 0x10] [] with flags := { Flags.reset with n := false } })
        (fun s => { s with pc := 0x9002 }) = true ∧
    yields ({ vectorState 0x8000 [0x30, 0x7F] [] with flags := { Flags.reset with n := true } })
        (fun s => { s with pc := 0x8081 }) = true ∧
    yields ({ vectorState 0x8000 [0x30, 0x00] [] with flags := { Flags.reset with n := true } })
        (fun s => { s with pc := 0x8002 }) = true := ⟨by decide, by decide, by decide⟩

/-- BR9. -/
theorem test_step_bpl :
    yields ({ vectorState 0x0000 [0x10, 0xF0] [] with flags := { Flags.reset with n := false } })
        (fun s => { s with pc := 0xFFF2 }) = true := by decide

/-- BR10. -/
theorem test_step_bvc :
    yields ({ vectorState 0x8000 [0x50, 0x02] [] with flags := { Flags.reset with v := false } })
        (fun s => { s with pc := 0x8004 }) = true := by decide

/-- BR11, BR12. -/
theorem test_step_bvs :
    yields ({ vectorState 0x8000 [0x70, 0x02] [] with flags := { Flags.reset with v := true } })
        (fun s => { s with pc := 0x8004 }) = true ∧
    yields ({ vectorState 0x8000 [0x70, 0x02] [] with flags := { Flags.reset with v := false } })
        (fun s => { s with pc := 0x8002 }) = true := ⟨by decide, by decide⟩

/-- BR14, BR15. -/
theorem test_step_brk :
    yields (vectorState 0x8006 [0x00] [])
        (fun s => { s with pc := 0x8007, run := .halted }) = true ∧
    yields (vectorState 0xFFFF [0x00] [])
        (fun s => { s with pc := 0x0000, run := .halted }) = true := ⟨by decide, by decide⟩

/-- EX1, EX2 and EX6: Fatal records the opcode and its address, and changes PC and the run state. -/
theorem test_step_unknown_opcode :
    yields (vectorState 0x8000 [0xFF] [])
        (fun s => { s with pc := 0x8001, run := .faulted 0xFF 0x8000 }) = true ∧
    yields (vectorState 0x8000 [0x4C, 0x00, 0x80] [])
        (fun s => { s with pc := 0x8001, run := .faulted 0x4C 0x8000 }) = true ∧
    yields (vectorState 0xFFFF [0x02] [])
        (fun s => { s with pc := 0x0000, run := .faulted 0x02 0xFFFF }) = true :=
  ⟨by decide, by decide, by decide⟩

/-- EX7, EX8, EX10: no move after an end, no meaning before reset. -/
theorem test_step_without_move :
    step { State.reset with run := .halted } = .fault .haltedNoMove ∧
    step { State.reset with run := .faulted 0xFF 0x8000 } = .fault (.faultedNoMove 0xFF 0x8000) ∧
    step { State.reset with run := .unreset } = .refused .stepBeforeReset :=
  ⟨rfl, rfl, rfl⟩

/-- E7 and EX9: RESET reads the vector and sets everything, in any run state. -/
theorem test_reset_vector :
    ({ vectorState 0x1234 [] [(0xFFFC, 0x00), (0xFFFD, 0x90)] with
        a := 0x55, sp := 0x03, run := .faulted 0xFF 0x8000 }).resetAction =
      { vectorState 0x9000 [] [(0xFFFC, 0x00), (0xFFFD, 0x90)] with sp := 0xFD } := by
  decide

/-- Writing zero removes an entry: equal memories are equal data. -/
theorem test_memory_canonical :
    ((State.reset.writeByte 0x0300 0x07).writeByte 0x0010 0x09).mem =
      [(0x0010, 0x09), (0x0300, 0x07)] ∧
    ((State.reset.writeByte 0x0300 0x07).writeByte 0x0300 0x00).mem = [] :=
  ⟨by decide, by decide⟩

/-- R94: the accesses of LDA ($FF),Y and INC $0300, in order. -/
theorem test_bus_accesses :
    busAccesses (vectorState 0x8000 [0xB1, 0xFF] [(0x00FF, 0x00), (0x0000, 0x03)]) =
      [.read 0x8000, .read 0x8001, .read 0x00FF, .read 0x0000, .read 0x0300] ∧
    busAccesses (vectorState 0x8000 [0xEE, 0x00, 0x03] [(0x0300, 0x7F)]) =
      [.read 0x8000, .read 0x8001, .read 0x8002, .read 0x0300, .write 0x0300 0x80] :=
  ⟨by decide, by decide⟩

/-- R70's example lines. -/
theorem test_assembler_text :
    (Instr.ldaImm 0x10).text 0x8000 = "LDA #$10" ∧ (Instr.staAbsY 0x0300).text 0x8000 = "STA $0300,Y" ∧
    (Instr.ldaIndX 0x40).text 0x8000 = "LDA ($40,X)" ∧ Instr.aslAcc.text 0x8000 = "ASL A" ∧
    (Instr.bne 0xFA).text 0x8008 = "BNE $8004" :=
  ⟨by decide, by decide, by decide, by decide, by decide⟩

/-- R70: a short operand selects a zero-page form, a long one an absolute form. -/
theorem test_assemble :
    assemble .lda (.shortX 0x80) 0x8000 = some (.ldaZpX 0x80) ∧
    assemble .sta (.long 0x0300) 0x8000 = some (.staAbs 0x0300) ∧
    assemble .sta (.imm 0x01) 0x8000 = none ∧
    assemble .bne (.long 0x8004) 0x8008 = some (.bne 0xFA) ∧
    assemble .bne (.long 0x9000) 0x8008 = none :=
  ⟨by decide, by decide, by decide, by decide, by decide⟩

/-- R70 and the encodings of programs P1 and P2: a source line, with a label. -/
theorem test_assemble_line :
    assembleLine 0x8000 "LDA #$10; STA $20; LDX $20; BRK".toList =
      some [0xA9, 0x10, 0x85, 0x20, 0xA6, 0x20, 0x00] ∧
    assembleLine 0x8004 "loop: CLC; ADC #$03; DEX; BNE loop; STA $30; BRK".toList =
      some [0x18, 0x69, 0x03, 0xCA, 0xD0, 0xFA, 0x85, 0x30, 0x00] ∧
    assembleLine 0x8000 "NOP".toList = none :=
  ⟨by decide, by decide, by decide⟩

/-- D15: the reset flags as the display byte. -/
theorem test_display_byte : Flags.reset.displayByte = 0x20 := by decide

/-! ## Witnesses: states and operands that meet the hypotheses of the statements -/

/-- ResetStateIsResetOverUnlistedMemory. -/
theorem witness_unlisted_memory : State.reset.mem = [] := rfl

/-- StepIsRefusedBeforeReset: an Unreset state, and two that differ only outside memory. -/
theorem witness_unreset :
    ({ State.reset with run := .unreset } : State).run = .unreset ∧
    ({ State.reset with a := 0xFF, run := .unreset } : State).mem = State.reset.mem := ⟨rfl, rfl⟩

/-- EndedRunIsLeftOnlyByReset: both terminal run states, and a command that has a move. -/
theorem witness_terminal :
    ({ State.reset with run := .halted } : State).run = .halted ∧
    ({ State.reset with run := .faulted 0xFF 0xFFFF } : State).run = .faulted 0xFF 0xFFFF ∧
    command .reset { State.reset with run := .halted } =
      .next ({ State.reset with run := .halted } : State).resetAction := ⟨rfl, rfl, rfl⟩

/-- CanonicalMemoriesWithEqualBytesAreEqual, at the two ends of the address space. -/
theorem witness_canonical :
    Memory.wf [(0x0000, 0x01), (0xFFFF, 0x02)] = true ∧
    ∀ addr : Word, Memory.read [(0x0000, 0x01), (0xFFFF, 0x02)] addr.toNat =
      Memory.read [(0x0000, 0x01), (0xFFFF, 0x02)] addr.toNat := ⟨by decide, fun _ => rfl⟩

/-- DirectModesResolve and ZeroPageIndexingWrapsInPageZero, their clauses on modes. -/
theorem witness_modes :
    Instr.aslAcc.mode = .accumulator ∧ (Instr.ldxZpY 0xFF).mode = .zeroPageY ∧
    (Instr.stxZpY 0x00).mode = .zeroPageY := ⟨rfl, rfl, rfl⟩

/-- EncodeOfDecodeIsTheBytes and LengthFollowsFromTheOpcode: a stream longer than the instruction, and
the same opcode with other operand bytes. -/
theorem witness_decodes :
    decode [0x8D, 0xFF, 0xFF, 0xEA] = .ok (.staAbs 0xFFFF, [0xEA]) ∧
    decode [0x8D, 0x00, 0x00] = .ok (.staAbs 0x0000, []) := ⟨rfl, rfl⟩

/-- IllegalOpcodesAreExactlyTheListed and UnknownOpcodeIsRecorded: the first and the last of the
illegal bytes, the latter at the top of memory. -/
theorem witness_illegal :
    (vectorState 0x0000 [0x02] []).run = .running ∧
    (vectorState 0x0000 [0x02] []).readByte 0x0000 ∈ illegalOpcodes ∧
    (vectorState 0xFFFF [0xFF] []).run = .running ∧
    (decodeTable ((vectorState 0xFFFF [0xFF] []).readByte 0xFFFF)).isNone = true ∧
    (vectorState 0xFFFF [0xFF] []).readByte 0xFFFF ∈ illegalOpcodes := by decide

/-- DecodedFormsAreTheAdmittedOnes. -/
theorem witness_forms :
    decodedMode .asl 0x0A = some .accumulator ∧
    Instr.ofForm .asl .accumulator = some .aslAcc ∧ formAdmitted .brk .implied = true := by decide

/-- StepRunsTheFetchedInstruction: both clauses, with instructions that end at and wrap over the top of
memory. -/
theorem witness_fetch :
    (vectorState 0xFFFE [0xAD, 0x00, 0x90] []).run = .running ∧
    decode [(vectorState 0xFFFE [0xAD, 0x00, 0x90] []).readByte 0xFFFE,
      (vectorState 0xFFFE [0xAD, 0x00, 0x90] []).readByte 0xFFFF,
      (vectorState 0xFFFE [0xAD, 0x00, 0x90] []).readByte 0x0000] = .ok (.ldaAbs 0x9000, []) ∧
    decode [(vectorState 0xFFFF [0xE9] []).readByte 0xFFFF, 0x00, 0x00] =
      .error (.unknownOpcode 0xE9) := ⟨by decide, by rfl, by rfl⟩

/-- StepOutcomeFollowsFromTheOpcode and BrkHalts: a state for each of the three outcomes. -/
theorem witness_outcomes :
    State.reset.run = .running ∧ State.reset.readByte State.reset.pc = 0x00 ∧
    yields State.reset (fun s => { s with pc := 0x0001, run := .halted }) = true ∧
    (decodeTable ((vectorState 0x8000 [0xFE] []).readByte 0x8000)).isSome = true ∧
    (decodeTable ((vectorState 0x8000 [0xFF] []).readByte 0x8000)).isNone = true := by decide

/-- EndOfRunLeavesPcAfterTheOpcode: a step to Halted and a step to Faulted. -/
theorem witness_ends :
    (∃ t, step State.reset = .next t ∧ t.run = .halted ∧ t.run ≠ .running) ∧
    ∃ t, step (vectorState 0xFFFF [0xFF] []) = .next t ∧ t.run = .faulted 0xFF 0xFFFF ∧
      t.run ≠ .running :=
  ⟨⟨_, rfl, rfl, by decide⟩, ⟨_, rfl, rfl, by decide⟩⟩

/-- PlacedInstructionRunsNext: one, two and three bytes. -/
theorem witness_placed :
    decodeTableWord 8 0x00 = some .brk ∧ decodeTableWord 16 0xFFA9 = some (.ldaImm 0xFF) ∧
    decodeTableWord 24 0xFFFFFE = some (.incAbsX 0xFFFF) := ⟨rfl, rfl, rfl⟩

/-- The statements about one mnemonic: an instruction of each. -/
theorem witness_mnemonics :
    (Instr.ldaIndY 0xFF).mnemonic = .lda ∧ (Instr.ldxZpY 0xFF).mnemonic = .ldx ∧
    (Instr.ldyAbsX 0xFFFF).mnemonic = .ldy ∧ (Instr.staIndX 0xFF).mnemonic = .sta ∧
    (Instr.stxZpY 0xFF).mnemonic = .stx ∧ (Instr.styZpX 0xFF).mnemonic = .sty ∧
    (Instr.adcImm 0x80).mnemonic = .adc ∧ (Instr.andImm 0x00).mnemonic = .and ∧
    (Instr.oraImm 0x80).mnemonic = .ora ∧ (Instr.eorImm 0xFF).mnemonic = .eor ∧
    (Instr.bitZp 0x10).mnemonic = .bit ∧ (Instr.incZp 0xFF).mnemonic = .inc ∧
    (Instr.decAbs 0xFFFF).mnemonic = .dec :=
  ⟨rfl, rfl, rfl, rfl, rfl, rfl, rfl, rfl, rfl, rfl, rfl, rfl, rfl⟩

/-- AslShiftsAMemoryByte. -/
theorem witness_asl_memory :
    (Instr.aslZpX 0xFF).mnemonic = .asl ∧ (Instr.aslZpX 0xFF).mode ≠ .accumulator := ⟨rfl, by decide⟩

/-- AdcOverflowIsSignedOverflow: 7F + 00 with carry overflows, FF + FF with carry does not. -/
theorem witness_adc_overflow :
    (Instr.adcImm 0x00).mnemonic = .adc ∧
    load (resolve (Instr.adcImm 0x00).operand
      { State.reset with a := 0x7F, flags := { Flags.reset with c := true } })
      { State.reset with a := 0x7F, flags := { Flags.reset with c := true } } = some 0x00 ∧
    adcOverflow 0x7F 0x00 (adcResult 0x7F 0x00 true) = true ∧
    adcOverflow 0xFF 0xFF (adcResult 0xFF 0xFF true) = false := by decide

/-- The frames on registers and flags, OnlyBranchesWritePc: CLV is listed only as writing V, and STX as
writing nothing; both answer. -/
theorem witness_frames :
    (∃ t, exec .clv State.reset = .next t) ∧
    Instr.clv.mnemonic ∉ [Mnemonic.lda, .txa, .tya, .adc, .and, .ora, .eor] ∧ Instr.clv ≠ .aslAcc ∧
    Instr.clv.mnemonic ∉ [Mnemonic.ldx, .tax, .tsx, .inx, .dex] ∧
    Instr.clv.mnemonic ∉ [Mnemonic.ldy, .tay, .iny, .dey] ∧ Instr.clv.mnemonic ≠ .txs ∧
    Instr.clv.mnemonic ∉ [Mnemonic.adc, .asl, .sec, .clc] ∧
    (∃ t, exec (.stxZp 0x20) State.reset = .next t) ∧
    (Instr.stxZp 0x20).mnemonic ∉ [Mnemonic.lda, .ldx, .ldy, .tax, .tay, .txa, .tya, .tsx, .inc, .dec,
      .inx, .iny, .dex, .dey, .and, .ora, .eor, .asl, .adc, .bit] ∧
    (Instr.stxZp 0x20).mnemonic ∉ [Mnemonic.adc, .bit, .clv] ∧
    (Instr.stxZp 0x20).mnemonic ∉ [Mnemonic.sed, .cld] ∧
    (Instr.stxZp 0x20).mnemonic ∉ [Mnemonic.sei, .cli] ∧
    (Instr.stxZp 0x20).mnemonic ∉ [Mnemonic.bcc, .bcs, .beq, .bne, .bmi, .bpl, .bvc, .bvs] ∧
    (Instr.stxZp 0x20).mnemonic ≠ .brk :=
  ⟨⟨_, rfl⟩, by decide, by decide, by decide, by decide, by decide, by decide, ⟨_, rfl⟩, by decide,
    by decide, by decide, by decide, by decide, by decide⟩

/-- OnlyTheStoredByteChanges: its three clauses, with an address next to the stored one. -/
theorem witness_memory_frame :
    (∃ t, exec (.ldaAbs 0xFFFF) State.reset = .next t) ∧
    (Instr.ldaAbs 0xFFFF).mnemonic ∉ [Mnemonic.sta, .stx, .sty, .inc, .dec, .asl] ∧
    (∃ t, exec .aslAcc State.reset = .next t) ∧ Instr.aslAcc.mode = .accumulator ∧
    (∃ t, exec (.staAbs 0xFFFF) State.reset = .next t) ∧
    resolve (Instr.staAbs 0xFFFF).operand State.reset = .mem 0xFFFF ∧ (0x0000 : Word) ≠ 0xFFFF :=
  ⟨⟨_, rfl⟩, by decide, ⟨_, rfl⟩, rfl, ⟨_, rfl⟩, rfl, by decide⟩

/-- The statements on what is not read: LDA in Absolute,Y reads neither A, S nor X; CLC reads no Y. -/
theorem witness_not_read :
    (Instr.ldaAbsY 0x0000).mnemonic ∉ [Mnemonic.sta, .tax, .tay, .adc, .and, .ora, .eor, .bit] ∧
    Instr.ldaAbsY 0x0000 ≠ .aslAcc ∧ (Instr.ldaAbsY 0x0000).mnemonic ≠ .tsx ∧
    (Instr.ldaAbsY 0x0000).mnemonic ∉ [Mnemonic.stx, .txa, .txs, .inx, .dex] ∧
    (Instr.ldaAbsY 0x0000).mode ∉ [Mode.zeroPageX, .absoluteX, .indirectX] ∧
    Instr.clc.mnemonic ∉ [Mnemonic.sty, .tya, .iny, .dey] ∧
    Instr.clc.mode ∉ [Mode.zeroPageY, .absoluteY, .indirectY] := by decide

/-- StepKeepsTheMachineInvariant: a state with the invariant that steps and writes memory. -/
theorem witness_invariant :
    (vectorState 0x8000 [0xEE, 0x00, 0x03] [(0x0300, 0x7F)]).Inv ∧
    ∃ t, step (vectorState 0x8000 [0xEE, 0x00, 0x03] [(0x0300, 0x7F)]) = .next t :=
  ⟨⟨by decide, fun _ => ⟨by decide, by decide⟩⟩, ⟨_, rfl⟩⟩

/-- FlagsUAndBAreConstantAlongARun and AnEndedRunStaysEnded: a run that ends and one not finished. -/
theorem witness_runs :
    (∃ t, runAfterReset 1 State.reset = .ended t) ∧
    (∃ t, runFrom 1 State.reset = .ended t) ∧
    ∃ t, runAfterReset 0 State.reset = .unfinished t :=
  ⟨⟨_, rfl⟩, ⟨_, rfl⟩, ⟨_, rfl⟩⟩

/-- MemoryChangesOnlyByBusWrites, TheOneBusWriteComesLast and StepSeesMemoryOnlyThroughItsReads: a step
that writes, and a memory that differs at an address the step does not read. -/
theorem witness_bus :
    (∃ t, step (vectorState 0x8000 [0x8D, 0xFF, 0xFF] []) = .next t) ∧
    (vectorState 0x8000 [0x8D, 0xFF, 0xFF] []).run = .running ∧
    (vectorState 0x8000 [0x8D, 0xFF, 0xFF] [(0xFFFF, 0x55)]).mem ≠
      (vectorState 0x8000 [0x8D, 0xFF, 0xFF] []).mem ∧
    ∀ addr, BusAccess.read addr ∈ busAccesses (vectorState 0x8000 [0x8D, 0xFF, 0xFF] []) →
      (vectorState 0x8000 [0x8D, 0xFF, 0xFF] [(0xFFFF, 0x55)]).mem.read addr.toNat =
        (vectorState 0x8000 [0x8D, 0xFF, 0xFF] []).readByte addr := by
  refine ⟨⟨_, rfl⟩, by decide, by decide, fun addr h => ?_⟩
  have hb : busAccesses (vectorState 0x8000 [0x8D, 0xFF, 0xFF] []) =
      [.read 0x8000, .read 0x8001, .read 0x8002, .write 0xFFFF 0x00] := by decide
  rw [hb] at h
  simp only [List.mem_cons, BusAccess.read.injEq, List.not_mem_nil, or_false, reduceCtorEq] at h
  rcases h with rfl | rfl | rfl <;> decide

/-- BranchDisplacementReachesItsTarget: both ends of the range, and a target over the top of memory. -/
theorem witness_displacement :
    branchDisplacement 0x8000 0x7F82 = some 0x80 ∧ branchDisplacement 0x8000 0x8081 = some 0x7F ∧
    branchDisplacement 0xFFFC 0x0002 = some 0x04 ∧ branchDisplacement 0x8000 0x8082 = none := by decide

/-- BranchToItselfNeverEnds. -/
theorem witness_branch_to_itself :
    (vectorState 0xFFFF [0xD0, 0xFE] []).run = .running ∧
    (vectorState 0xFFFF [0xD0, 0xFE] []).readByte 0xFFFF = 0xD0 ∧
    (vectorState 0xFFFF [0xD0, 0xFE] []).readByte 0x0000 = 0xFE ∧
    (vectorState 0xFFFF [0xD0, 0xFE] []).flags.z = false := by decide

end Sys2Proof.Tests
end

/-! SUPPORT. What a step and a run can do, said once, and the obligations of spec/10_state.md: PC
where a run ends (R27) and the two constant flags (R29, R30). -/

namespace Sys2Proof.Machine

section Step

variable {s t : State}

/-- An instruction is one byte longer than its operand (R60). -/
theorem length_of_operandBytes {i : Instr} {n : Nat} (h : i.operand.bytes.length = n) :
    i.length = n + 1 := by
  rw [← length_encode, encode, List.length_cons, h]

/-- The instruction fetched has the opcode looked up, and PC has moved past its bytes (R60, R64). -/
theorem fetchOperand_of_decodeTable {op : Byte} {sh : Shape} (s : State)
    (h : decodeTable op = some sh) :
    ∃ i : Instr, i.opcode = op ∧
      fetchOperand sh (s.setPc (s.pc + 1)) = (i, s.setPc (s.pc + BitVec.ofNat 16 i.length)) := by
  have hop := opcode_of_decodeTable h
  rw [fetchOperand_eq]
  cases sh with
  | noOperand i =>
    obtain ⟨hcode, hbytes⟩ := hop
    have hlen := length_of_operandBytes (congrArg List.length hbytes)
    exact ⟨i, hcode, by rw [hlen]; rfl⟩
  | byteOperand f =>
    obtain ⟨hcode, hbytes⟩ := hop (s.readByte (s.pc + 1))
    have hlen := length_of_operandBytes (congrArg List.length hbytes)
    have hpc : s.pc + 1 + 1 = s.pc + 2 := BitVec.add_assoc ..
    exact ⟨_, hcode, by rw [hlen, State.setPc_pc, hpc]; rfl⟩
  | wordOperand f =>
    obtain ⟨hcode, hbytes⟩ :=
      hop (wordOfBytes (s.readByte (s.pc + 1)) (s.readByte (s.pc + 1 + 1)))
    have hlen := length_of_operandBytes (congrArg List.length hbytes)
    have hpc : s.pc + 1 + 1 + 1 = s.pc + 3 := by rw [BitVec.add_assoc, BitVec.add_assoc]; rfl
    exact ⟨_, hcode, by rw [hlen, State.setPc_pc, hpc]; rfl⟩

/-- A step that answers either records an opcode without a handler (R201) or runs an instruction of
the opcode at PC, with PC moved past it (R64). -/
theorem step_cases (h : step s = .next t) :
    (decodeTable (s.readByte s.pc) = none ∧
      t = { s with pc := s.pc + 1, run := .faulted (s.readByte s.pc) s.pc }) ∨
    ∃ i : Instr, i.opcode = s.readByte s.pc ∧
      exec i (s.setPc (s.pc + BitVec.ofNat 16 i.length)) = .next t := by
  rw [step_of_running s (running_of_step s h), fetchExecute_eq] at h
  cases hd : decodeTable (s.readByte s.pc) with
  | none =>
    rw [hd] at h
    cases h
    exact .inl ⟨rfl, rfl⟩
  | some sh =>
    obtain ⟨i, hop, hfetch⟩ := fetchOperand_of_decodeTable s hd
    simp only [hd, hfetch] at h
    exact .inr ⟨i, hop, h⟩

/-- Only BRK writes the run state (R33). -/
theorem exec_run {i : Instr} (h : exec i s = .next t) (hi : i ≠ .brk) : t.run = s.run := by
  cases i with
  | brk => exact absurd rfl hi
  | _ => cases h; simp

/-- A step to a terminal run state met an opcode without a handler or a BRK (R204). -/
theorem step_cases_of_not_running (h : step s = .next t) (ht : t.run ≠ .running) :
    (decodeTable (s.readByte s.pc) = none ∧
      t = { s with pc := s.pc + 1, run := .faulted (s.readByte s.pc) s.pc }) ∨
    (s.readByte s.pc = 0x00 ∧ t = { s with pc := s.pc + 1, run := .halted }) := by
  refine (step_cases h).imp_right fun ⟨i, hop, hexec⟩ => ?_
  by_cases hi : i = .brk
  · subst hi
    cases hexec
    exact ⟨hop.symm, rfl⟩
  · exact absurd ((exec_run hexec hi).trans (running_of_step s h)) ht

end Step

/-- Settles O24: the step was an unknown opcode or a BRK, and each leaves PC one past its opcode. -/
theorem endOfRunLeavesPcAfterTheOpcode : Obligations.EndOfRunLeavesPcAfterTheOpcode := by
  unfold Obligations.EndOfRunLeavesPcAfterTheOpcode
  intro s t h ht
  obtain ⟨hd, rfl⟩ | ⟨hop, rfl⟩ := step_cases_of_not_running h ht
  · exact ⟨rfl, rfl, rfl, by simp [hd]⟩
  · have hpc : s.pc + 1 - 1 = s.pc := BitVec.add_sub_cancel ..
    exact ⟨rfl, (congrArg s.readByte hpc).trans hop⟩

section Run

/-- The values of the two flags that never change after reset (R29, R30). -/
def Flags.Constant (f : Flags) : Prop := f.u = true ∧ f.b = false

/-- No instruction clears U or writes B (R28). -/
theorem exec_flags_constant {i : Instr} {s t : State} (h : exec i s = .next t)
    (hs : s.flags.Constant) : t.flags.Constant := by
  obtain ⟨hu, hb⟩ := hs
  cases i <;> cases h <;> exact ⟨by simp [hu], hb⟩

theorem step_flags_constant {s t : State} (hs : s.flags.Constant) (h : step s = .next t) :
    t.flags.Constant := by
  obtain ⟨-, rfl⟩ | ⟨i, -, hexec⟩ := step_cases h
  · exact hs
  · exact exec_flags_constant hexec hs

/-- What every step keeps holds of every state a run comes to. -/
theorem runFrom_invariant {P : State → Prop} (hstep : ∀ {s t}, P s → step s = .next t → P t)
    {k : Nat} {s t : State} (hs : P s) (h : runFrom k s = .ended t ∨ runFrom k s = .unfinished t) :
    P t := by
  induction k generalizing s with
  | zero =>
    obtain h | h := h <;> cases h
    exact hs
  | succ k ih =>
    cases hst : step s with
    | next s' =>
      have hs' := hstep hs hst
      cases hr : s'.run <;> simp only [runFrom, hst, hr] at h
      case running => exact ih hs' h
      all_goals
        obtain h | h := h <;> cases h
        exact hs'
    | fault _ | refused _ => simp [runFrom, hst] at h

end Run

/-- Settles O53, by the invariant of a run that every step keeps the two flags. -/
theorem flagsUAndBAreConstantAlongARun : Obligations.FlagsUAndBAreConstantAlongARun := by
  unfold Obligations.FlagsUAndBAreConstantAlongARun
  intro k s t h
  have hreset : s.resetAction.flags.Constant := ⟨rfl, rfl⟩
  exact runFrom_invariant step_flags_constant hreset h

end Sys2Proof.Machine

/-! SUPPORT. What a list of bus accesses leaves in memory, and the obligation of spec/20_memory.md on
the bytes read after it (R51). -/

namespace Sys2Proof.Machine

section Accesses

variable (m : Memory) (addr : Word) (accs : List BusAccess)

@[simp] theorem Memory.afterAccesses_nil : m.afterAccesses [] = m := rfl

@[simp] theorem Memory.afterAccesses_read (b : Word) :
    m.afterAccesses (.read b :: accs) = m.afterAccesses accs := rfl

@[simp] theorem Memory.afterAccesses_write (b : Word) (v : Byte) :
    m.afterAccesses (.write b v :: accs) = (m.write b.toNat v).afterAccesses accs := rfl

@[simp] theorem latestWrite_nil : latestWrite addr [] = none := rfl

@[simp] theorem latestWrite_read (b : Word) :
    latestWrite addr (.read b :: accs) = latestWrite addr accs := by
  simp [latestWrite]

/-- A write counts only where no later access writes the same address. -/
@[simp] theorem latestWrite_write (b : Word) (v : Byte) :
    latestWrite addr (.write b v :: accs) =
      (latestWrite addr accs).or (if b = addr then some v else none) := by
  simp [latestWrite]

end Accesses

/-- Settles O6, by induction on the accesses: the memory that the later accesses start from differs
from `m` in the byte of the first access alone. -/
theorem readReturnsTheMostRecentWrite : Obligations.ReadReturnsTheMostRecentWrite := by
  unfold Obligations.ReadReturnsTheMostRecentWrite
  intro m accs addr
  induction accs generalizing m with
  | nil => rfl
  | cons acc accs ih =>
    cases acc with
    | read b => simp [ih]
    | write b v =>
      rw [Memory.afterAccesses_write, ih, latestWrite_write, Memory.read_write]
      cases latestWrite addr accs with
      | some w => rfl
      | none =>
        by_cases hb : b = addr
        · simp [hb]
        · simp [hb, Ne.symm hb, BitVec.toNat_inj]

end Sys2Proof.Machine

/-! SUPPORT. The decoder and the fetch of a step, each said once, and the obligations of
spec/30_encoding.md on the illegal opcodes (R67), the length (R60) and the step (R62-R64). -/

namespace Sys2Proof

/-- A mode's length is that of R60's table. -/
theorem Mode.length_eq (md : Mode) :
    md.length =
      match md with
      | .implied | .accumulator => 1
      | .immediate | .zeroPage | .zeroPageX | .zeroPageY | .indirectX | .indirectY | .relative => 2
      | .absolute | .absoluteX | .absoluteY => 3 := by
  cases md <;> rfl

section Decoder

variable {op : Byte} {bytes rest : List Byte} {i : Instr}

/-- The decoder refuses an opcode by name exactly when the table has no handler for it. -/
theorem decode_eq_unknownOpcode_iff :
    decode (op :: rest) = .error (.unknownOpcode op) ↔ decodeTable op = none := by
  simp only [decode]
  split <;> simp [*]

/-- What decodes to an instruction is its opcode and operand bytes, and then the rest. -/
theorem eq_encode_append_of_decode (h : decode bytes = .ok (i, rest)) :
    bytes = encode i ++ rest := by
  cases bytes with
  | nil => cases h
  | cons op tail =>
    simp only [decode] at h
    split at h <;> cases h
    case h_2 hd =>
      obtain ⟨hop, hops⟩ := opcode_of_decodeTable hd
      simp [encode, hop, hops]
    case h_3 f b hd =>
      obtain ⟨hop, hops⟩ := opcode_of_decodeTable hd b
      simp [encode, hop, hops]
    case h_4 f lo hi hd =>
      obtain ⟨hop, hops⟩ := opcode_of_decodeTable hd (wordOfBytes lo hi)
      simp [encode, hop, hops, loByte_wordOfBytes, hiByte_wordOfBytes]

/-- A decoded stream begins with the opcode of its instruction. -/
theorem opcode_of_decode (h : decode (op :: bytes) = .ok (i, rest)) : i.opcode = op := by
  cases eq_encode_append_of_decode h
  rfl

end Decoder

/-- The opcode fixes the mnemonic and the mode (R60, R69). -/
theorem mnemonic_mode_of_opcode_eq {i j : Instr} (h : i.opcode = j.opcode) :
    i.mnemonic = j.mnemonic ∧ i.mode = j.mode := by
  have hform : some (i.mnemonic, i.mode) = some (j.mnemonic, j.mode) := by
    rw [← sample_of_opcode i, h, sample_of_opcode j]
  exact Prod.mk.inj (Option.some.inj hform)

namespace Machine

/-- The 256 bytes, in order. -/
def allBytes : List Byte := (List.finRange 256).map BitVec.ofFin

theorem mem_allBytes (b : Byte) : b ∈ allBytes :=
  List.mem_map.2 ⟨b.toFin, List.mem_finRange _, rfl⟩

theorem nodup_allBytes : allBytes.Nodup :=
  (List.nodup_finRange 256).map fun _ _ h => congrArg BitVec.toFin h

/-- R67's list against the decode table, byte by byte. -/
theorem illegalOpcodes_eq_filter :
    illegalOpcodes = allBytes.filter fun op => (decodeTable op).isNone := by
  have hbytes : (illegalOpcodes == allBytes.filter fun op => (decodeTable op).isNone) = true := by
    decide
  exact eq_of_beq hbytes

theorem nodup_illegalOpcodes : illegalOpcodes.Nodup := by
  rw [illegalOpcodes_eq_filter]
  exact nodup_allBytes.filter _

theorem mem_illegalOpcodes_iff (op : Byte) : op ∈ illegalOpcodes ↔ decodeTable op = none := by
  rw [illegalOpcodes_eq_filter, List.mem_filter, Option.isNone_iff_eq_none]
  exact and_iff_right (mem_allBytes op)

section Fetch

variable {s : State}

/-- An opcode without a handler is recorded, with PC past it (R201). -/
theorem step_of_unknownOpcode (hs : s.run = .running) (hd : decodeTable (s.readByte s.pc) = none) :
    step s = .next { s with pc := s.pc + 1, run := .faulted (s.readByte s.pc) s.pc } := by
  rw [step_of_running s hs, fetchExecute_eq, hd]
  rfl

/-- The three bytes at PC decode to the instruction that is fetched, whichever of them it takes
(R60, R63). -/
theorem decode_fetched {sh : Shape} (hd : decodeTable (s.readByte s.pc) = some sh) :
    ∃ rest, decode [s.readByte s.pc, s.readByte (s.pc + 1), s.readByte (s.pc + 2)] =
      .ok ((fetchOperand sh (s.setPc (s.pc + 1))).1, rest) := by
  have hpc : s.pc + 1 + 1 = s.pc + 2 := BitVec.add_assoc ..
  rw [← hpc]
  cases sh <;> simp [decode, hd, fetchOperand_eq]

end Fetch

/-- Settles O17: the list is the bytes without a handler, which are those the decoder refuses and
those a step records. -/
theorem illegalOpcodesAreExactlyTheListed : Obligations.IllegalOpcodesAreExactlyTheListed := by
  unfold Obligations.IllegalOpcodesAreExactlyTheListed
  refine ⟨rfl, nodup_illegalOpcodes, fun op rest => ?_, fun s hs hop => ?_⟩
  · rw [decode_eq_unknownOpcode_iff, mem_illegalOpcodes_iff]
  · exact ⟨_, step_of_unknownOpcode hs ((mem_illegalOpcodes_iff _).1 hop), rfl⟩

/-- Settles O20: a decoded stream is an encoding and the rest, and two that begin with one opcode
are of one form. -/
theorem lengthFollowsFromTheOpcode : Obligations.LengthFollowsFromTheOpcode := by
  unfold Obligations.LengthFollowsFromTheOpcode
  refine ⟨fun i => i.mode.length_eq, fun bytes i rest h => ?_, ?_⟩
  · rw [eq_encode_append_of_decode h, List.length_append, length_encode]
  · intro op bytes bytes' i i' rest rest' h h'
    exact mnemonic_mode_of_opcode_eq ((opcode_of_decode h).trans (opcode_of_decode h').symm)

/-- Settles O21, by the table's answer for the opcode at PC. -/
theorem stepRunsTheFetchedInstruction : Obligations.StepRunsTheFetchedInstruction := by
  unfold Obligations.StepRunsTheFetchedInstruction
  intro s hs
  cases hd : decodeTable (s.readByte s.pc) with
  | none =>
    rw [decode_eq_unknownOpcode_iff.2 hd]
    exact step_of_unknownOpcode hs hd
  | some sh =>
    obtain ⟨rest, hdec⟩ := decode_fetched hd
    obtain ⟨i, -, hfetch⟩ := fetchOperand_of_decodeTable s hd
    rw [hdec, step_of_running s hs, fetchExecute_eq, hd]
    simp only [hfetch]
    rfl

end Machine

end Sys2Proof

/-! SUPPORT. The addresses of the resolver as natural numbers, the assembler's table of forms
against R95's and the decoder's, and the obligations of spec/40_addressing_modes.md (R81-R92,
R95). -/

namespace Sys2Proof

/-- The operand bytes of a word written high:low are low, then high (R44). -/
theorem bytes_of_append (lo hi : Byte) : [loByte (hi ++ lo), hiByte (hi ++ lo)] = [lo, hi] :=
  congrArg₂ (fun b c => [b, c]) (loByte_wordOfBytes lo hi) (hiByte_wordOfBytes lo hi)

section Forms

variable {m : Mnemonic} {md : Mode} {op : Operand} {i : Instr}

/-- An instruction is the one its own mnemonic and operand make. -/
theorem Instr.ofForm_mnemonic_operand (i : Instr) : Instr.ofForm i.mnemonic i.operand = some i := by
  cases i <;> rfl

theorem Instr.ofForm_eq_some_iff :
    Instr.ofForm m op = some i ↔ i.mnemonic = m ∧ i.operand = op := by
  constructor
  · intro h
    unfold Instr.ofForm at h
    split at h <;> split at h <;> cases h <;> exact ⟨rfl, rfl⟩
  · rintro ⟨rfl, rfl⟩
    exact i.ofForm_mnemonic_operand

/-- A mnemonic and an operand make an instruction where R95's table has the mode. -/
theorem Instr.isSome_ofForm (m : Mnemonic) (op : Operand) :
    (Instr.ofForm m op).isSome = formAdmitted m op.mode := by
  cases m <;> cases op <;> rfl

/-- The operand of a mode whose bytes are all zero. -/
def Mode.zeroOperand : Mode → Operand
  | .implied => .implied
  | .accumulator => .accumulator
  | .immediate => .immediate 0
  | .zeroPage => .zeroPage 0
  | .zeroPageX => .zeroPageX 0
  | .zeroPageY => .zeroPageY 0
  | .absolute => .absolute 0
  | .absoluteX => .absoluteX 0
  | .absoluteY => .absoluteY 0
  | .indirectX => .indirectX 0
  | .indirectY => .indirectY 0
  | .relative => .relative 0

@[simp] theorem Mode.mode_zeroOperand (md : Mode) : md.zeroOperand.mode = md := by cases md <;> rfl

/-- The opcode of a pair of mnemonic and mode, if the pair makes an instruction. -/
def formOpcode (m : Mnemonic) (md : Mode) : Option Byte :=
  (Instr.ofForm m md.zeroOperand).map Instr.opcode

/-- The opcode depends on the mnemonic and the mode alone (R66). -/
theorem formOpcode_mnemonic_mode (i : Instr) : formOpcode i.mnemonic i.mode = some i.opcode := by
  cases i <;> rfl

theorem isSome_formOpcode (m : Mnemonic) (md : Mode) :
    (formOpcode m md).isSome = formAdmitted m md := by
  rw [formOpcode, Option.isSome_map, Instr.isSome_ofForm, Mode.mode_zeroOperand]

theorem exists_instr_of_formOpcode {code : Byte} (h : formOpcode m md = some code) :
    ∃ i : Instr, i.opcode = code ∧ i.mnemonic = m ∧ i.mode = md := by
  obtain ⟨i, hi, hcode⟩ := Option.map_eq_some_iff.1 h
  obtain ⟨hm, hop⟩ := Instr.ofForm_eq_some_iff.1 hi
  exact ⟨i, hcode, hm, by rw [Instr.mode, hop, Mode.mode_zeroOperand]⟩

/-- The sample of an opcode's shape is an instruction of that opcode. -/
theorem opcode_sample {code : Byte} {sh : Shape} (h : decodeTable code = some sh) :
    sh.sample.opcode = code := by
  have hop := opcode_of_decodeTable h
  cases sh with
  | noOperand i => exact hop.left
  | byteOperand f => exact (hop 0).left
  | wordOperand f => exact (hop 0).left

end Forms

namespace Machine

/-- An instruction's opcode is read in its mode (R65). -/
theorem decodedMode_opcode (i : Instr) : decodedMode i.mnemonic i.opcode = some i.mode := by
  obtain ⟨sh, hd, hform⟩ := Option.map_eq_some_iff.1 (sample_of_opcode i)
  obtain ⟨hm, hmd⟩ := Prod.mk.inj hform
  simp [decodedMode, hd, hm, hmd]

/-- The decoder reads an opcode as a form exactly when it is the opcode of the form. -/
theorem decodedMode_eq_some_iff {m : Mnemonic} {md : Mode} {code : Byte} :
    decodedMode m code = some md ↔ formOpcode m md = some code := by
  constructor
  · intro h
    obtain ⟨sh, hd, hsh⟩ := Option.bind_eq_some_iff.1 h
    obtain ⟨rfl, hmd⟩ := Option.ite_none_right_eq_some.1 hsh
    cases hmd
    rw [formOpcode_mnemonic_mode, opcode_sample hd]
  · intro h
    obtain ⟨i, rfl, rfl, rfl⟩ := exists_instr_of_formOpcode h
    exact decodedMode_opcode i

/-- Settles O18: a form is decoded from its opcode alone, and it has one where R95 admits it. -/
theorem decodedFormsAreTheAdmittedOnes : Obligations.DecodedFormsAreTheAdmittedOnes := by
  unfold Obligations.DecodedFormsAreTheAdmittedOnes
  refine ⟨fun m md => ?_, fun m md op op' h h' => ?_, Instr.isSome_ofForm,
    fun m op i => Instr.ofForm_eq_some_iff⟩
  · rw [← isSome_formOpcode, Option.isSome_iff_exists]
    exact exists_congr fun op => decodedMode_eq_some_iff.symm
  · have hform := decodedMode_eq_some_iff.1 h
    have hform' := decodedMode_eq_some_iff.1 h'
    exact Option.some.inj (hform.symm.trans hform')

section EffectiveAddress

variable (b d : Byte) (base : Word) (s : State)

/-- A byte as an address lies in page zero at its own number. -/
theorem setWidth_byte_toNat : (b.setWidth 16).toNat = b.toNat :=
  BitVec.toNat_setWidth_of_le (by decide)

theorem eaZeroPage_toNat : (eaZeroPage b).toNat = b.toNat := setWidth_byte_toNat b

theorem eaZeroPageX_toNat : (eaZeroPageX b s).toNat = (b.toNat + s.x.toNat) % 256 := by
  rw [eaZeroPageX, setWidth_byte_toNat, BitVec.toNat_add]

theorem eaZeroPageY_toNat : (eaZeroPageY b s).toNat = (b.toNat + s.y.toNat) % 256 := by
  rw [eaZeroPageY, setWidth_byte_toNat, BitVec.toNat_add]

theorem eaAbsoluteX_toNat : (eaAbsoluteX base s).toNat = (base.toNat + s.x.toNat) % 65536 := by
  rw [eaAbsoluteX, BitVec.toNat_add, setWidth_byte_toNat]

theorem eaAbsoluteY_toNat : (eaAbsoluteY base s).toNat = (base.toNat + s.y.toNat) % 65536 := by
  rw [eaAbsoluteY, BitVec.toNat_add, setWidth_byte_toNat]

/-- `ReadPtrZP` (R88) on numbers: the high byte's address wraps within page zero. -/
theorem readPointer_toNat :
    (s.readPointer b).toNat =
      (s.mem.read ((b.toNat + 1) % 256)).toNat * 256 + (s.mem.read b.toNat).toNat := by
  rw [State.readPointer, wordOfBytes_toNat, State.readByte, State.readByte, setWidth_byte_toNat,
    setWidth_byte_toNat, BitVec.toNat_add]
  rfl

theorem eaIndirectX_toNat :
    (eaIndirectX b s).toNat =
      (s.mem.read (((b.toNat + s.x.toNat) % 256 + 1) % 256)).toNat * 256 +
        (s.mem.read ((b.toNat + s.x.toNat) % 256)).toNat := by
  rw [eaIndirectX, readPointer_toNat, BitVec.toNat_add]

theorem eaIndirectY_toNat :
    (eaIndirectY b s).toNat =
      ((s.mem.read ((b.toNat + 1) % 256)).toNat * 256 + (s.mem.read b.toNat).toNat +
        s.y.toNat) % 65536 := by
  rw [eaIndirectY, BitVec.toNat_add, readPointer_toNat, setWidth_byte_toNat]

/-- Sign extension adds the upper byte 0xFF where bit 7 is set, which is -256 mod 65536. -/
theorem relativeTarget_toNat :
    ((relativeTarget d s).toNat : Int) =
      ((s.pc.toNat : Int) + (if d.getLsbD 7 then (d.toNat : Int) - 256 else d.toNat)) % 65536 := by
  have hmsb : d.msb = d.getLsbD 7 := BitVec.msb_eq_getLsbD_last d
  rw [relativeTarget, BitVec.toNat_add, BitVec.toNat_signExtend, setWidth_byte_toNat, hmsb]
  split <;> omega

end EffectiveAddress

/-- Settles O8: the resolver's answer in each of the five modes, and ASL A alone of the instructions
has the mode Accumulator. -/
theorem directModesResolve : Obligations.DirectModesResolve := by
  unfold Obligations.DirectModesResolve
  refine ⟨fun v s => ⟨rfl, rfl⟩, fun b s => ⟨⟨_, rfl, eaZeroPage_toNat b⟩, rfl⟩,
    fun lo hi s => ⟨rfl, bytes_of_append lo hi⟩, fun s => ⟨rfl, rfl⟩, fun s => ⟨rfl, rfl⟩,
    fun i => ⟨fun h => ?_, fun h => h ▸ rfl⟩⟩
  cases i with
  | aslAcc => rfl
  | _ => cases h

/-- Settles O10: the sum is a byte before it is widened; LDX and STX alone have the mode Zero
Page,Y. -/
theorem zeroPageIndexingWrapsInPageZero : Obligations.ZeroPageIndexingWrapsInPageZero := by
  unfold Obligations.ZeroPageIndexingWrapsInPageZero
  refine ⟨fun b s => ⟨⟨_, rfl, eaZeroPageX_toNat b s⟩, rfl⟩,
    fun b s => ⟨⟨_, rfl, eaZeroPageY_toNat b s⟩, rfl⟩, fun i h => ?_⟩
  cases i with
  | ldxZpY _ => exact .inl rfl
  | stxZpY _ => exact .inr rfl
  | _ => cases h

/-- Settles O11: the base is hi * 256 + lo, and the index is added to the whole of it. -/
theorem absoluteIndexingWrapsAtTheTopOfMemory :
    Obligations.AbsoluteIndexingWrapsAtTheTopOfMemory := by
  unfold Obligations.AbsoluteIndexingWrapsAtTheTopOfMemory
  intro lo hi s
  have hbase : (hi ++ lo : Word).toNat = hi.toNat * 256 + lo.toNat := wordOfBytes_toNat lo hi
  rw [← hbase]
  exact ⟨⟨_, rfl, eaAbsoluteX_toNat _ s⟩, ⟨_, rfl, eaAbsoluteY_toNat _ s⟩,
    bytes_of_append lo hi, bytes_of_append lo hi⟩

/-- Settles O12, by the pointer read at (b + X) mod 256. -/
theorem indirectXReadsAPageZeroPointer : Obligations.IndirectXReadsAPageZeroPointer := by
  unfold Obligations.IndirectXReadsAPageZeroPointer
  exact fun b s => ⟨⟨_, rfl, eaIndirectX_toNat b s⟩, rfl⟩

/-- Settles O13, by the pointer read at p, before Y is added. -/
theorem indirectYAddsYToThePointer : Obligations.IndirectYAddsYToThePointer := by
  unfold Obligations.IndirectYAddsYToThePointer
  exact fun p s => ⟨⟨_, rfl, eaIndirectY_toNat p s⟩, rfl⟩

/-- Settles O14, by the sign extension on integers. -/
theorem relativeTargetWraps : Obligations.RelativeTargetWraps := by
  unfold Obligations.RelativeTargetWraps
  exact fun d s => ⟨⟨_, rfl, relativeTarget_toNat d s⟩, rfl⟩

end Machine

end Sys2Proof

/-! SUPPORT. A mnemonic's "Encoding" line checked mode by mode, what an instruction loads or where it
stores by the modes of its mnemonic alone, and the obligations of spec/41_load_store_transfer.md
(R100-R111). -/

namespace Sys2Proof

/-- The modes that resolve to an effective address (R82-R89). -/
def Mode.isMemory : Mode → Bool
  | .zeroPage | .zeroPageX | .zeroPageY | .absolute | .absoluteX | .absoluteY
  | .indirectX | .indirectY => true
  | .implied | .accumulator | .immediate | .relative => false

/-- The modes from which `Load` gives a byte: it is never called on a branch target or on no operand
(R93). -/
def Mode.isLoadable (md : Mode) : Bool := md != .implied && md != .relative

namespace Machine

section Forms

variable {m : Mnemonic} {md : Mode} {forms : List (Byte × Mode)}

theorem mem_modes_iff_exists_formOpcode : md ∈ m.modes ↔ ∃ op, formOpcode m md = some op := by
  rw [← Option.isSome_iff_exists, isSome_formOpcode, formAdmitted, List.contains_iff_mem]

/-- An instruction is in one of the modes that R95 lists for its mnemonic. -/
theorem mode_mem_modes (i : Instr) : i.mode ∈ i.mnemonic.modes :=
  mem_modes_iff_exists_formOpcode.2 ⟨_, formOpcode_mnemonic_mode i⟩

/-- Forms that each have their own opcode, and leave out no mode of R95's list, are all the forms of
the mnemonic: an opcode that the decoder reads as one of them is the opcode of its mode. -/
theorem hasForms_of_modes (hcode : ∀ f ∈ forms, formOpcode m f.2 = some f.1)
    (hmodes : ∀ md ∈ m.modes, md ∈ forms.map Prod.snd) : HasForms m forms := by
  intro op
  cases hl : forms.lookup op with
  | some md =>
    obtain ⟨l₁, l₂, rfl, -⟩ := List.lookup_eq_some_iff.1 hl
    exact decodedMode_eq_some_iff.2 (hcode (op, md) (by simp))
  | none =>
    refine Option.eq_none_iff_forall_ne_some.2 fun md hd => ?_
    have hop := decodedMode_eq_some_iff.1 hd
    have hmd := hmodes md (mem_modes_iff_exists_formOpcode.2 ⟨op, hop⟩)
    obtain ⟨f, hf, rfl⟩ := List.mem_map.1 hmd
    have hcodes : op = f.1 := Option.some.inj (hop.symm.trans (hcode f hf))
    have hne := List.lookup_eq_none_iff.1 hl f hf
    simp [hcodes] at hne

/-- A mnemonic with one mode has one form. -/
theorem hasForms_singleton {code : Byte} (hmodes : m.modes = [md])
    (hcode : formOpcode m md = some code) : HasForms m [(code, md)] :=
  hasForms_of_modes (by simp [hcode]) (by simp [hmodes])

end Forms

section Operands

variable {op : Operand} {i : Instr} {m : Mnemonic} (s : State)

theorem exists_load_of_isLoadable (h : op.mode.isLoadable = true) :
    ∃ v, load (resolve op s) s = some v := by
  cases op with
  | implied | relative _ => cases h
  | _ => exact ⟨_, rfl⟩

theorem exists_ea_of_isMemory (h : op.mode.isMemory = true) : ∃ ea, resolve op s = .mem ea := by
  cases op with
  | implied | accumulator | immediate _ | relative _ => cases h
  | _ => exact ⟨_, rfl⟩

/-- An instruction of a mnemonic with an operand to load runs on the byte loaded (R93). -/
theorem exec_of_isLoadable (hm : i.mnemonic = m) (hmodes : ∀ md ∈ m.modes, md.isLoadable = true) :
    ∃ v, load (resolve i.operand s) s = some v ∧
      exec i s = applyForm m (resolve i.operand s) v s := by
  subst hm
  obtain ⟨v, hv⟩ := exists_load_of_isLoadable s (hmodes _ (mode_mem_modes i))
  exact ⟨v, hv, by rw [exec_eq_applyForm, hv, Option.getD_some]⟩

/-- An instruction of a mnemonic with memory modes only runs on an effective address and the byte
there (R82-R89, R93). -/
theorem exec_of_isMemory (hm : i.mnemonic = m) (hmodes : ∀ md ∈ m.modes, md.isMemory = true) :
    ∃ ea, resolve i.operand s = .mem ea ∧ exec i s = applyForm m (.mem ea) (s.readByte ea) s := by
  subst hm
  obtain ⟨ea, hea⟩ := exists_ea_of_isMemory s (hmodes _ (mode_mem_modes i))
  exact ⟨ea, hea, by rw [exec_eq_applyForm, hea]; rfl⟩

end Operands

/-- Settles O27: every mode of LDA gives a byte to load, and LDA puts it into A. -/
theorem ldaLoadsA : Obligations.LdaLoadsA := by
  unfold Obligations.LdaLoadsA
  refine ⟨hasForms_of_modes (by decide) (by decide), fun i s hi => ?_⟩
  obtain ⟨v, hv, hexec⟩ := exec_of_isLoadable s hi (by decide)
  exact ⟨v, hv, hexec.trans (loadA_eq s v)⟩

/-- Settles O28: every mode of LDX gives a byte to load, and LDX puts it into X. -/
theorem ldxLoadsX : Obligations.LdxLoadsX := by
  unfold Obligations.LdxLoadsX
  refine ⟨hasForms_of_modes (by decide) (by decide), fun i s hi => ?_⟩
  obtain ⟨v, hv, hexec⟩ := exec_of_isLoadable s hi (by decide)
  exact ⟨v, hv, hexec.trans (loadX_eq s v)⟩

/-- Settles O29: every mode of LDY gives a byte to load, and LDY puts it into Y. -/
theorem ldyLoadsY : Obligations.LdyLoadsY := by
  unfold Obligations.LdyLoadsY
  refine ⟨hasForms_of_modes (by decide) (by decide), fun i s hi => ?_⟩
  obtain ⟨v, hv, hexec⟩ := exec_of_isLoadable s hi (by decide)
  exact ⟨v, hv, hexec.trans (loadY_eq s v)⟩

/-- Settles O30: every mode of STA is a memory mode, and STA writes A to its address. -/
theorem staStoresA : Obligations.StaStoresA := by
  unfold Obligations.StaStoresA
  refine ⟨hasForms_of_modes (by decide) (by decide), fun i s hi => ?_⟩
  obtain ⟨ea, hea, hexec⟩ := exec_of_isMemory s hi (by decide)
  exact ⟨ea, hea, hexec.trans (storeA_eq s ea)⟩

/-- Settles O31: every mode of STX is a memory mode, and STX writes X to its address. -/
theorem stxStoresX : Obligations.StxStoresX := by
  unfold Obligations.StxStoresX
  refine ⟨hasForms_of_modes (by decide) (by decide), fun i s hi => ?_⟩
  obtain ⟨ea, hea, hexec⟩ := exec_of_isMemory s hi (by decide)
  exact ⟨ea, hea, hexec.trans (storeX_eq s ea)⟩

/-- Settles O32: every mode of STY is a memory mode, and STY writes Y to its address. -/
theorem styStoresY : Obligations.StyStoresY := by
  unfold Obligations.StyStoresY
  refine ⟨hasForms_of_modes (by decide) (by decide), fun i s hi => ?_⟩
  obtain ⟨ea, hea, hexec⟩ := exec_of_isMemory s hi (by decide)
  exact ⟨ea, hea, hexec.trans (storeY_eq s ea)⟩

section Transfers

variable (s : State)

theorem execTax_eq : execTax s = .next { s with x := s.a, flags := s.flags.setZN s.a } := rfl

theorem execTay_eq : execTay s = .next { s with y := s.a, flags := s.flags.setZN s.a } := rfl

theorem execTxa_eq : execTxa s = .next { s with a := s.x, flags := s.flags.setZN s.x } := rfl

theorem execTya_eq : execTya s = .next { s with a := s.y, flags := s.flags.setZN s.y } := rfl

theorem execTsx_eq : execTsx s = .next { s with x := s.sp, flags := s.flags.setZN s.sp } := rfl

theorem execTxs_eq : execTxs s = .next { s with sp := s.x } := rfl

end Transfers

/-- Settles O33: each transfer is one form, and its meaning is the copy, with setZN but for TXS. -/
theorem transfersCopyARegister : Obligations.TransfersCopyARegister := by
  unfold Obligations.TransfersCopyARegister
  refine ⟨hasForms_singleton rfl rfl, hasForms_singleton rfl rfl, hasForms_singleton rfl rfl,
    hasForms_singleton rfl rfl, hasForms_singleton rfl rfl, hasForms_singleton rfl rfl,
    fun s => ?_⟩
  exact ⟨execTax_eq s, execTay_eq s, execTxa_eq s, execTya_eq s, execTsx_eq s, execTxs_eq s⟩

end Machine

end Sys2Proof

/-! SUPPORT. The ALU's results and flags as the sums and bits of spec/42_alu.md (R131-R145), and the
obligations of that section. -/

namespace Sys2Proof.Machine

section Results

variable (a m r v : Byte) (c : Bool)

theorem adcSum_eq : adcSum a m c = a.toNat + m.toNat + (if c then 1 else 0) := by
  cases c <;> rfl

/-- The 9-bit intermediate fits in nine bits (R133). -/
theorem adcSum_lt : adcSum a m c < 512 := by
  have ha := a.isLt
  have hm := m.isLt
  have hc := c.toNat_lt
  unfold adcSum
  omega

theorem adcResult_eq :
    adcResult a m c = BitVec.ofNat 8 (a.toNat + m.toNat + (if c then 1 else 0)) := by
  rw [adcResult, adcSum_eq]

/-- Bit 8 of a 9-bit number says whether it reaches 256. -/
theorem adcCarry_eq :
    adcCarry a m c = decide (256 ≤ a.toNat + m.toNat + (if c then 1 else 0)) := by
  have hlt := adcSum_lt a m c
  rw [adcCarry, ← adcSum_eq, Nat.testBit_eq_decide_div_mod_eq, decide_eq_decide]
  omega

/-- Masking with 0x80 leaves bit 7, so the masked byte is not 0 when that bit is set. -/
theorem and_0x80_ne_zero : (v &&& 0x80 != 0) = v.getLsbD 7 := by
  have htwoPow : (0x80 : Byte) = BitVec.twoPow 8 7 := rfl
  rw [htwoPow, BitVec.and_twoPow]
  cases v.getLsbD 7 <;> rfl

theorem adcOverflow_eq :
    adcOverflow a m r =
      decide (a.getLsbD 7 = m.getLsbD 7 ∧ r.getLsbD 7 ≠ a.getLsbD 7) := by
  rw [adcOverflow, and_0x80_ne_zero, BitVec.getLsbD_and, BitVec.getLsbD_not, BitVec.getLsbD_xor,
    BitVec.getLsbD_xor]
  cases a.getLsbD 7 <;> cases m.getLsbD 7 <;> cases r.getLsbD 7 <;> rfl

theorem aslResult_eq : aslResult v = BitVec.ofNat 8 (v.toNat * 2) := by
  apply BitVec.eq_of_toNat_eq
  rw [aslResult, BitVec.toNat_shiftLeft, BitVec.toNat_ofNat, Nat.shiftLeft_eq, pow_one]

theorem incByte_eq : incByte v = BitVec.ofNat 8 (v.toNat + 1) :=
  BitVec.eq_of_toNat_eq (by simp [incByte])

theorem decByte_eq : decByte v = BitVec.ofNat 8 (v.toNat + 255) :=
  BitVec.eq_of_toNat_eq (by simp [decByte])

end Results

section Meanings

variable (s : State)

/-- ADC with its carry and overflow written out on the operands (R133); D is not read (R132). -/
theorem addA_eq_of_sum {m r : Byte}
    (hr : r = BitVec.ofNat 8 (s.a.toNat + m.toNat + (if s.flags.c then 1 else 0))) :
    addA m s = .next { s with
      a := r
      flags := { s.flags with
        c := decide (256 ≤ s.a.toNat + m.toNat + (if s.flags.c then 1 else 0))
        v := decide (s.a.getLsbD 7 = m.getLsbD 7 ∧ r.getLsbD 7 ≠ s.a.getLsbD 7)
        z := (r == 0x00)
        n := r.getLsbD 7
        u := true } } := by
  rw [addA_eq, Flags.adc, ← adcOverflow_eq, ← adcCarry_eq, hr, ← adcResult_eq]
  rfl

theorem execInx_eq :
    execInx s = .next { s with x := incByte s.x, flags := s.flags.setZN (incByte s.x) } := rfl

theorem execIny_eq :
    execIny s = .next { s with y := incByte s.y, flags := s.flags.setZN (incByte s.y) } := rfl

theorem execDex_eq :
    execDex s = .next { s with x := decByte s.x, flags := s.flags.setZN (decByte s.x) } := rfl

theorem execDey_eq :
    execDey s = .next { s with y := decByte s.y, flags := s.flags.setZN (decByte s.y) } := rfl

end Meanings

/-- Settles O34: every mode of ADC gives a byte to load, and ADC adds it and C to A. -/
theorem adcAddsWithCarry : Obligations.AdcAddsWithCarry := by
  unfold Obligations.AdcAddsWithCarry
  refine ⟨hasForms_of_modes (by decide) (by decide), fun i s hi => ?_⟩
  obtain ⟨m, hm, hexec⟩ := exec_of_isLoadable s hi (by decide)
  exact ⟨m, _, hm, rfl, hexec.trans (addA_eq_of_sum s rfl)⟩

/-- Settles O36: every mode of the three gives a byte to load, and each mnemonic combines it with A
by its own operation. -/
theorem logicInstructionsCombineIntoA : Obligations.LogicInstructionsCombineIntoA := by
  unfold Obligations.LogicInstructionsCombineIntoA
  refine ⟨hasForms_of_modes (by decide) (by decide), hasForms_of_modes (by decide) (by decide),
    hasForms_of_modes (by decide) (by decide), ?_⟩
  rintro i s (hi | hi | hi) <;> rw [hi]
  · obtain ⟨m, hm, hexec⟩ := exec_of_isLoadable s hi (by decide)
    exact ⟨m, _, hm, rfl, hexec.trans (andA_eq s m)⟩
  · obtain ⟨m, hm, hexec⟩ := exec_of_isLoadable s hi (by decide)
    exact ⟨m, _, hm, rfl, hexec.trans (orA_eq s m)⟩
  · obtain ⟨m, hm, hexec⟩ := exec_of_isLoadable s hi (by decide)
    exact ⟨m, _, hm, rfl, hexec.trans (eorA_eq s m)⟩

/-- Settles O37: the shift left by one is the double mod 256. -/
theorem aslShiftsTheAccumulator : Obligations.AslShiftsTheAccumulator := by
  unfold Obligations.AslShiftsTheAccumulator
  exact ⟨decodedMode_opcode .aslAcc, fun s => ⟨_, aslResult_eq s.a, aslA_eq s⟩⟩

/-- Settles O39: both modes of BIT give a byte to load, and BIT writes Z, N and V from it and A. -/
theorem bitTestsMemory : Obligations.BitTestsMemory := by
  unfold Obligations.BitTestsMemory
  refine ⟨hasForms_of_modes (by decide) (by decide), fun i s hi => ?_⟩
  obtain ⟨m, hm, hexec⟩ := exec_of_isLoadable s hi (by decide)
  exact ⟨m, hm, hexec.trans (bitA_eq s m)⟩

/-- Settles O40: every mode of INC and DEC is a memory mode, and each writes back the byte at its
address plus 1 or plus 255. -/
theorem incAndDecChangeAMemoryByte : Obligations.IncAndDecChangeAMemoryByte := by
  unfold Obligations.IncAndDecChangeAMemoryByte
  refine ⟨hasForms_of_modes (by decide) (by decide), hasForms_of_modes (by decide) (by decide), ?_⟩
  rintro i s (hi | hi) <;> rw [hi]
  · obtain ⟨ea, hea, hexec⟩ := exec_of_isMemory s hi (by decide)
    exact ⟨ea, _, hea, incByte_eq _, hexec.trans (incMem_eq s ea)⟩
  · obtain ⟨ea, hea, hexec⟩ := exec_of_isMemory s hi (by decide)
    exact ⟨ea, _, hea, decByte_eq _, hexec.trans (decMem_eq s ea)⟩

/-- Settles O41: each is one form, and counts its register by one mod 256, with setZN. -/
theorem indexRegistersCount : Obligations.IndexRegistersCount := by
  unfold Obligations.IndexRegistersCount
  refine ⟨hasForms_singleton rfl rfl, hasForms_singleton rfl rfl, hasForms_singleton rfl rfl,
    hasForms_singleton rfl rfl, fun s => ?_⟩
  exact ⟨⟨_, incByte_eq s.x, execInx_eq s⟩, ⟨_, incByte_eq s.y, execIny_eq s⟩,
    ⟨_, decByte_eq s.x, execDex_eq s⟩, ⟨_, decByte_eq s.y, execDey_eq s⟩⟩

end Sys2Proof.Machine

/-! SUPPORT. The flag instructions as updates of one flag each, and the obligation of
spec/43_flag_instructions.md (R160-R166). -/

namespace Sys2Proof.Machine

section FlagInstructions

variable (s : State)

theorem execSec_eq : execSec s = .next { s with flags := { s.flags with c := true } } := rfl

theorem execClc_eq : execClc s = .next { s with flags := { s.flags with c := false } } := rfl

theorem execSed_eq : execSed s = .next { s with flags := { s.flags with d := true } } := rfl

theorem execCld_eq : execCld s = .next { s with flags := { s.flags with d := false } } := rfl

theorem execSei_eq : execSei s = .next { s with flags := { s.flags with i := true } } := rfl

theorem execCli_eq : execCli s = .next { s with flags := { s.flags with i := false } } := rfl

theorem execClv_eq : execClv s = .next { s with flags := { s.flags with v := false } } := rfl

end FlagInstructions

/-- Settles O42: each is one form, and its meaning is the update of its flag alone. -/
theorem flagInstructionsWriteOneFlag : Obligations.FlagInstructionsWriteOneFlag := by
  unfold Obligations.FlagInstructionsWriteOneFlag
  refine ⟨hasForms_singleton rfl rfl, hasForms_singleton rfl rfl, hasForms_singleton rfl rfl,
    hasForms_singleton rfl rfl, hasForms_singleton rfl rfl, hasForms_singleton rfl rfl,
    hasForms_singleton rfl rfl, fun s => ?_⟩
  exact ⟨execSec_eq s, execClc_eq s, execSed_eq s, execCld_eq s, execSei_eq s, execCli_eq s,
    execClv_eq s⟩

end Sys2Proof.Machine

/-! SUPPORT. What a step does and which accesses it makes where its opcode has a handler, a branch as
the test of one flag, and the obligations of spec/44_branch_control.md (R170-R179). -/

namespace Sys2Proof.Machine

section Handled

variable {s : State} {sh : Shape}

/-- A step on an opcode with a handler executes the instruction it fetches (R64). -/
theorem step_of_decodeTable (hs : s.run = .running)
    (hd : decodeTable (s.readByte s.pc) = some sh) :
    step s = exec (fetchOperand sh (s.setPc (s.pc + 1))).1
      (fetchOperand sh (s.setPc (s.pc + 1))).2 := by
  rw [step_of_running s hs, fetchExecute_eq, hd]

/-- A step on an opcode with a handler reads the opcode, then the operand bytes, and then makes the
accesses of the instruction (R94). -/
theorem busAccesses_of_decodeTable (hs : s.run = .running)
    (hd : decodeTable (s.readByte s.pc) = some sh) :
    busAccesses s = .read s.pc :: (operandAccesses sh (s.setPc (s.pc + 1)) ++
      instrAccesses (fetchOperand sh (s.setPc (s.pc + 1))).1
        (fetchOperand sh (s.setPc (s.pc + 1))).2) := by
  simp only [busAccesses, hs, fetch8_eq, hd]

end Handled

theorem execBrk_eq (s : State) : execBrk s = .next { s with run := .halted } := raise_eq s .halt

section Brk

variable {s : State}

/-- The handler of a BRK opcode takes no operand byte (R179). -/
theorem decodeTable_of_brk (hop : s.readByte s.pc = 0x00) :
    decodeTable (s.readByte s.pc) = some (.noOperand .brk) := by
  rw [hop]
  rfl

/-- BRK runs with PC past its opcode alone (R27, R202). -/
theorem step_of_brk (hs : s.run = .running) (hop : s.readByte s.pc = 0x00) :
    step s = .next { s with pc := s.pc + 1, run := .halted } :=
  (step_of_decodeTable hs (decodeTable_of_brk hop)).trans (execBrk_eq _)

/-- BRK fetches no operand byte and has no effective address, so only its opcode is read (R179). -/
theorem busAccesses_of_brk (hs : s.run = .running) (hop : s.readByte s.pc = 0x00) :
    busAccesses s = [.read s.pc] :=
  busAccesses_of_decodeTable hs (decodeTable_of_brk hop)

end Brk

/-- Settles O25: BRK's handler takes no operand and halts; a step to a terminal run state met BRK or
an unknown opcode, and the latter answers Faulted. -/
theorem brkHalts : Obligations.BrkHalts := by
  unfold Obligations.BrkHalts
  refine ⟨hasForms_singleton rfl rfl, execBrk_eq,
    fun s hs hop => ⟨step_of_brk hs hop, busAccesses_of_brk hs hop⟩, fun s t h ht => ?_⟩
  have hrun : t.run ≠ .running := by simp [ht]
  obtain ⟨-, rfl⟩ | ⟨hop, rfl⟩ := step_cases_of_not_running h hrun
  · cases ht
  · exact ⟨hop, rfl⟩

/-- A branch that tests a flag for a value goes to its target exactly where the flag has it (R170). -/
theorem branch_flag_eq (flag value : Bool) (d : Byte) (s : State) :
    branch (flag == value) d s =
      .next { s with pc := if flag = value then relativeTarget d s else s.pc } := by
  simp only [branch_eq, beq_iff_eq]

/-- Settles O43: each is one form, and its meaning is the branch on its flag and value. -/
theorem branchesTestOneFlag : Obligations.BranchesTestOneFlag := by
  unfold Obligations.BranchesTestOneFlag
  refine ⟨hasForms_singleton rfl rfl, hasForms_singleton rfl rfl, hasForms_singleton rfl rfl,
    hasForms_singleton rfl rfl, hasForms_singleton rfl rfl, hasForms_singleton rfl rfl,
    hasForms_singleton rfl rfl, hasForms_singleton rfl rfl, fun d s => ?_⟩
  have hbranch (flag value : Bool) := branch_flag_eq flag value d s
  exact ⟨relativeTarget d s, rfl, hbranch s.flags.c false, hbranch s.flags.c true,
    hbranch s.flags.z true, hbranch s.flags.z false, hbranch s.flags.n true,
    hbranch s.flags.n false, hbranch s.flags.v false, hbranch s.flags.v true⟩

end Sys2Proof.Machine

/-! SUPPORT. That every step in run state Running answers and with which run state, what the host reads
off that run state, and the obligations of spec/60_exceptions.md (R200, R201, R204). -/

namespace Sys2Proof.Machine

section Report

variable {s : State}

/-- The first row of R200's table. -/
theorem State.status_of_running (h : s.run = .running) : s.status = some .continue := by
  simp only [State.status, h]

/-- The second row of R200's table. -/
theorem State.status_of_halted (h : s.run = .halted) : s.status = some .halt := by
  simp only [State.status, h]

/-- The third row of R200's table. -/
theorem State.status_of_faulted {opcode : Byte} {pc : Word} (h : s.run = .faulted opcode pc) :
    s.status = some .fatal := by
  simp only [State.status, h]

/-- The run state that holds a fault record is the one that reads as FATAL (R5, R201, R202). -/
theorem State.isSome_faultRecord_iff : s.faultRecord.isSome ↔ s.status = some .fatal := by
  cases h : s.run <;> simp [State.faultRecord, State.status, h]

end Report

/-- No instruction faults or is refused: every one is total over its operands (R203). -/
theorem exists_exec_eq_next (i : Instr) (s : State) : ∃ t, exec i s = .next t := by
  cases i <;> exact ⟨_, rfl⟩

section Outcome

variable {s t : State}

/-- An opcode without a handler is the only byte its step reads (R201). -/
theorem busAccesses_of_unknownOpcode (hs : s.run = .running)
    (hd : decodeTable (s.readByte s.pc) = none) : busAccesses s = [.read s.pc] := by
  simp only [busAccesses, hs, fetch8_eq, hd]

/-- A step in Running answers: Fatal is a next state, and a handled opcode runs an instruction. -/
theorem exists_step_eq_next (hs : s.run = .running) : ∃ t, step s = .next t := by
  cases hd : decodeTable (s.readByte s.pc) with
  | none => exact ⟨_, step_of_unknownOpcode hs hd⟩
  | some sh =>
    rw [step_of_decodeTable hs hd]
    exact exists_exec_eq_next ..

/-- The run state a step answers, in the order of R204's checks. -/
theorem run_of_step (h : step s = .next t) :
    t.run =
      if (decodeTable (s.readByte s.pc)).isNone then .faulted (s.readByte s.pc) s.pc
      else if s.readByte s.pc = 0x00 then .halted
      else .running := by
  have hs := running_of_step s h
  split_ifs with hd hop
  · rw [step_of_unknownOpcode hs (Option.isNone_iff_eq_none.1 hd)] at h
    cases h
    rfl
  · rw [step_of_brk hs hop] at h
    cases h
    rfl
  · by_contra ht
    obtain ⟨hd', -⟩ | ⟨hop', -⟩ := step_cases_of_not_running h ht
    · exact hd (Option.isNone_iff_eq_none.2 hd')
    · exact hop hop'

end Outcome

/-- Settles O23: the step answers, its run state is fixed by the opcode, and STATUS is read off it. -/
theorem stepOutcomeFollowsFromTheOpcode : Obligations.StepOutcomeFollowsFromTheOpcode := by
  unfold Obligations.StepOutcomeFollowsFromTheOpcode
  intro s hs
  obtain ⟨t, h⟩ := exists_step_eq_next hs
  refine ⟨t, h, ?_, State.isSome_faultRecord_iff⟩
  have hrun := run_of_step h
  split_ifs at hrun ⊢
  · exact ⟨hrun, congrArg (Option.map Status.code) (State.status_of_faulted hrun)⟩
  · exact ⟨hrun, congrArg (Option.map Status.code) (State.status_of_halted hrun)⟩
  · exact ⟨hrun, congrArg (Option.map Status.code) (State.status_of_running hrun)⟩

/-- Settles O22: the fetch makes the one access and moves PC, and the run state raised is the record. -/
theorem unknownOpcodeIsRecorded : Obligations.UnknownOpcodeIsRecorded := by
  unfold Obligations.UnknownOpcodeIsRecorded
  intro s hs hnone
  have hd := Option.isNone_iff_eq_none.1 hnone
  exact ⟨busAccesses_of_unknownOpcode hs hd, _, step_of_unknownOpcode hs hd, rfl, rfl, rfl⟩

end Sys2Proof.Machine

/-! SUPPORT. What the reset action takes from the state it finds and what a step without a move answers,
and the obligations of spec/70_reset_and_hazards.md on the reset (R220, R223) and on the state before
it (R224). -/

namespace Sys2Proof.Machine

section ResetAndNoMove

variable {s s' : State}

/-- The reset action gives the reset state, with PC from the vector and the memory kept (R220). -/
theorem State.resetAction_eq (s : State) :
    s.resetAction =
      { State.reset with
        pc := s.readByte 0xFFFD ++ s.readByte 0xFFFC
        mem := s.mem } := rfl

/-- The reset action sees of a state only its memory. -/
theorem State.resetAction_congr (h : s.mem = s'.mem) : s.resetAction = s'.resetAction := by
  simp only [State.resetAction_eq, State.readByte, h]

/-- RESET performs the reset action in every run state (R223). -/
@[simp] theorem command_reset (s : State) : command .reset s = .next s.resetAction := rfl

/-- In a run state without a move, a step answers what that run state gives. -/
theorem step_of_noMove {r : Result} (h : s.noMove = some r) : step s = r := by
  simp only [step, h]

theorem noMove_of_unreset (h : s.run = .unreset) : s.noMove = some (.refused .stepBeforeReset) := by
  simp only [State.noMove, h]

end ResetAndNoMove

/-- Settles O1: RESET is the reset action, whose two reads are the bytes of the vector. -/
theorem resetGivesTheCompleteResetState : Obligations.ResetGivesTheCompleteResetState := by
  unfold Obligations.ResetGivesTheCompleteResetState
  intro s
  refine ⟨?_, rfl⟩
  rw [command_reset, State.resetAction_eq]
  rfl

/-- Settles O3: Unreset has no move, and the reset action sees only the memory. -/
theorem stepIsRefusedBeforeReset : Obligations.StepIsRefusedBeforeReset := by
  unfold Obligations.StepIsRefusedBeforeReset
  refine ⟨fun s hs => step_of_noMove (noMove_of_unreset hs), fun s s' hmem => ?_⟩
  rw [command_reset, command_reset, State.resetAction_congr hmem]

end Sys2Proof.Machine

/-! SUPPORT. The decoder on an encoding, the distance of a branch as the displacement that its
target adds, and the obligations of spec/30_encoding.md on the round trip (R60-R66) and on written
operands (R70). -/

namespace Sys2Proof

/-- The decoder completes the shape of the opcode with the operand bytes that follow it. -/
theorem decode_encode_append (i : Instr) (rest : List Byte) :
    decode (encode i ++ rest) = .ok (i, rest) := by
  obtain ⟨sh, hd, hsh⟩ := decodeTable_opcode i
  cases sh with
  | noOperand j =>
    obtain ⟨rfl, hbytes⟩ := hsh
    simp [encode, decode, hd, hbytes]
  | byteOperand f =>
    obtain ⟨b, hf, hbytes⟩ := hsh
    simp [encode, decode, hd, hbytes, hf]
  | wordOperand f =>
    obtain ⟨w, hf, hbytes⟩ := hsh
    simp [encode, decode, hd, hbytes, hf, wordOfBytes_loByte_hiByte]

/-- Settles O15, by the shape that the decode table gives the opcode of the instruction. -/
theorem decodeOfEncodeIsTheInstruction : Obligations.DecodeOfEncodeIsTheInstruction := by
  unfold Obligations.DecodeOfEncodeIsTheInstruction
  exact decode_encode_append

/-- Settles O16: the shape of an opcode takes exactly the operand bytes of what it gives. -/
theorem encodeOfDecodeIsTheBytes : Obligations.EncodeOfDecodeIsTheBytes := by
  unfold Obligations.EncodeOfDecodeIsTheBytes
  exact fun bytes i rest h => eq_encode_append_of_decode h

/-- Settles O19: each word is the encoding of its instruction. -/
theorem writtenOutWordsDecode : Obligations.WrittenOutWordsDecode := by
  unfold Obligations.WrittenOutWordsDecode
  exact ⟨decode_encode_append (.ldaImm 0x10) [], decode_encode_append (.staAbsY 0x0300) [],
    decode_encode_append (.adcAbsX 0x10F0) [], decode_encode_append (.oraIndY 0x80) [],
    decode_encode_append .aslAcc [], decode_encode_append (.ldxZpY 0xF8) [],
    decode_encode_append .sed [], decode_encode_append (.bne 0xFA) [],
    decode_encode_append .brk []⟩

section Assembler

variable {w start target : Word} {d : Byte}

/-- The low byte of a word in the range of a byte has the value of the word. -/
theorem toInt_loByte (h : -128 ≤ w.toInt ∧ w.toInt ≤ 127) : (loByte w).toInt = w.toInt := by
  have hmod : (loByte w).toInt = w.toInt.bmod 256 := by
    rw [loByte, BitVec.toInt_extractLsb', BitVec.toInt_eq_toNat_bmod,
      Int.bmod_bmod_of_dvd (by decide)]
    rfl
  rw [hmod]
  exact Int.bmod_eq_of_le (by omega) (by omega)

theorem toInt_signExtend_byte (d : Byte) : (d.signExtend 16).toInt = d.toInt :=
  BitVec.toInt_signExtend_of_le (by decide)

theorem toInt_byte_range (d : Byte) : -128 ≤ d.toInt ∧ d.toInt ≤ 127 :=
  ⟨BitVec.le_toInt d, Int.le_of_lt_add_one BitVec.toInt_lt⟩

/-- A byte is the low byte of the words in its range with its value, of which there is one. -/
theorem loByte_eq_iff (h : -128 ≤ w.toInt ∧ w.toInt ≤ 127) :
    loByte w = d ↔ w = d.signExtend 16 := by
  rw [← BitVec.toInt_inj, ← BitVec.toInt_inj, toInt_loByte h, toInt_signExtend_byte]

/-- A displacement is assembled exactly when the distance is its sign extension. -/
theorem branchDisplacement_eq_some_iff :
    branchDisplacement start target = some d ↔ target - (start + 2) = d.signExtend 16 := by
  rw [branchDisplacement, Option.ite_none_right_eq_some, Option.some_inj]
  constructor
  · rintro ⟨hrange, hd⟩
    exact (loByte_eq_iff hrange).1 hd
  · intro h
    have hrange : -128 ≤ (target - (start + 2)).toInt ∧ (target - (start + 2)).toInt ≤ 127 := by
      rw [h, toInt_signExtend_byte]
      exact toInt_byte_range d
    exact ⟨hrange, (loByte_eq_iff hrange).2 h⟩

theorem branchDisplacement_add_signExtend (start : Word) (d : Byte) :
    branchDisplacement start (start + 2 + d.signExtend 16) = some d :=
  branchDisplacement_eq_some_iff.2 (by rw [BitVec.add_comm, BitVec.add_sub_cancel])

end Assembler

/-- A branch mnemonic has the mode Relative alone, and no other mnemonic has it (R95). -/
theorem modes_eq_relative_iff (m : Mnemonic) :
    ∀ md ∈ m.modes, m.modes = [.relative] ↔ md = .relative := by
  cases m <;> decide

/-- The written form of an operand selects it, for a mnemonic that has its mode (R70, R95). -/
theorem operand_written (i : Instr) (start : Word) :
    (i.operand.written start).operand i.mnemonic start = some i.operand := by
  have hrel := modes_eq_relative_iff i.mnemonic i.mode (Machine.mode_mem_modes i)
  unfold Instr.mode at hrel
  cases hop : i.operand with
  | absolute w =>
    rw [hop] at hrel
    exact if_neg fun h => nomatch hrel.1 h
  | relative d =>
    have hd := branchDisplacement_add_signExtend start d
    rw [hop] at hrel
    exact (if_pos (hrel.2 rfl)).trans (congrArg (Option.map Operand.relative) hd)
  | _ => rfl

/-- Settles O57: the written form selects the operand, and the mnemonic and it make the
instruction. -/
theorem assemblingTheWrittenFormGivesTheInstruction :
    Obligations.AssemblingTheWrittenFormGivesTheInstruction := by
  unfold Obligations.AssemblingTheWrittenFormGivesTheInstruction
  intro i start
  rw [assemble, operand_written, Option.bind_some, Instr.ofForm_mnemonic_operand]

/-- Settles O58: the target is the start of the next instruction and the distance. -/
theorem branchDisplacementReachesItsTarget : Obligations.BranchDisplacementReachesItsTarget := by
  unfold Obligations.BranchDisplacementReachesItsTarget
  intro start target d
  rw [branchDisplacement_eq_some_iff, sub_eq_iff_eq_add']

end Sys2Proof

/-! SUPPORT. What a memory in canonical form reads as, and what the bytes laid at PC read as, with
the obligations on the equality of memories (spec/20_memory.md R40, R43) and on the placing of an
instruction (assumption 4). -/

namespace Sys2Proof.Machine

section CanonicalForm

variable {k k' least a : Nat} {v v' : Byte} {m m' : Memory}

/-- Below its least address a memory in canonical form lists nothing. -/
theorem Memory.read_of_lt_least (h : m.wfFrom least = true) (ha : a < least) :
    m.read a = Config.unlistedByte := by
  induction m generalizing least with
  | nil => rfl
  | cons e m ih =>
    obtain ⟨k, v⟩ := e
    obtain ⟨hle, -, -, htail⟩ := (Memory.wfFrom_cons ..).1 h
    rw [Memory.read_cons, if_neg (by omega)]
    exact ih htail (by omega)

theorem Memory.read_cons_self (k : Nat) (v : Byte) (m : Memory) :
    Memory.read ((k, v) :: m) k = v := if_pos rfl

/-- A byte that the first entry lists and every entry of another memory lies above tells the two
memories apart. -/
theorem Memory.read_cons_ne_of_wfFrom (h : Memory.wfFrom least ((k, v) :: m) = true)
    (h' : m'.wfFrom (k + 1) = true) : Memory.read ((k, v) :: m) k ≠ m'.read k := by
  obtain ⟨-, -, hv, -⟩ := (Memory.wfFrom_cons ..).1 h
  rw [Memory.read_cons_self, Memory.read_of_lt_least h' k.lt_succ_self]
  exact hv

/-- Memories that read the same list the same first address. -/
theorem Memory.first_le_of_read_eq (h : Memory.wfFrom least ((k, v) :: m) = true)
    (h' : Memory.wfFrom least ((k', v') :: m') = true)
    (heq : Memory.read ((k, v) :: m) k = Memory.read ((k', v') :: m') k) : k' ≤ k := by
  by_contra hlt
  obtain ⟨-, hk', hv', htail'⟩ := (Memory.wfFrom_cons ..).1 h'
  have habove : Memory.wfFrom (k + 1) ((k', v') :: m') = true :=
    (Memory.wfFrom_cons ..).2 ⟨by omega, hk', hv', htail'⟩
  exact Memory.read_cons_ne_of_wfFrom h habove heq

/-- The entries after equal first ones read the same as well: at the first address neither lists a
byte. -/
theorem Memory.read_tail_eq (h : m.wfFrom (k + 1) = true) (h' : m'.wfFrom (k + 1) = true)
    (heq : Memory.read ((k, v) :: m) a = Memory.read ((k, v) :: m') a) : m.read a = m'.read a := by
  by_cases ha : k = a
  · subst ha
    rw [Memory.read_of_lt_least h k.lt_succ_self, Memory.read_of_lt_least h' k.lt_succ_self]
  · rwa [Memory.read_cons, Memory.read_cons, if_neg ha, if_neg ha] at heq

theorem Memory.eq_of_read_eq (h : m.wfFrom least = true) (h' : m'.wfFrom least = true)
    (heq : ∀ a < Config.memorySize, m.read a = m'.read a) : m = m' := by
  induction m generalizing m' least with
  | nil =>
    cases m' with
    | nil => rfl
    | cons e' m' =>
      obtain ⟨k', v'⟩ := e'
      obtain ⟨-, hk', -, -⟩ := (Memory.wfFrom_cons ..).1 h'
      exact absurd (heq k' hk').symm (Memory.read_cons_ne_of_wfFrom h' rfl)
  | cons e m ih =>
    obtain ⟨k, v⟩ := e
    obtain ⟨-, hk, -, htail⟩ := (Memory.wfFrom_cons ..).1 h
    cases m' with
    | nil => exact absurd (heq k hk) (Memory.read_cons_ne_of_wfFrom h rfl)
    | cons e' m' =>
      obtain ⟨k', v'⟩ := e'
      obtain ⟨-, hk', -, htail'⟩ := (Memory.wfFrom_cons ..).1 h'
      obtain rfl : k = k' := Nat.le_antisymm (Memory.first_le_of_read_eq h' h (heq k' hk').symm)
        (Memory.first_le_of_read_eq h h' (heq k hk))
      obtain rfl : v = v' := by simpa only [Memory.read_cons_self] using heq k hk
      rw [ih htail htail' fun a ha => Memory.read_tail_eq htail htail' (heq a ha)]

end CanonicalForm

/-- Settles O7, by induction on the two lists: the first entries are at the same address, since the
memory whose entries lie above an address reads there as unlisted. -/
theorem canonicalMemoriesWithEqualBytesAreEqual :
    Obligations.CanonicalMemoriesWithEqualBytesAreEqual := by
  unfold Obligations.CanonicalMemoriesWithEqualBytesAreEqual
  exact fun m m' h h' heq => Memory.eq_of_read_eq h h' fun a ha => heq ⟨a, ha⟩

section PlacedInstruction

variable (s : State)

@[simp] theorem State.withFetchWord_pc (nbits w : Nat) : (s.withFetchWord nbits w).pc = s.pc := rfl

@[simp] theorem State.withFetchWord_run (nbits w : Nat) :
    (s.withFetchWord nbits w).run = .running := rfl

/-- Three addresses in a row are different, also across the top of memory, so each holds the byte
laid there. -/
theorem State.readByte_writeBytes_three (addr : Word) (b₀ b₁ b₂ : Byte) :
    let t := s.writeBytes addr [b₀, b₁, b₂]
    [t.readByte addr, t.readByte (addr + 1), t.readByte (addr + 2)] = [b₀, b₁, b₂] := by
  have h₁ : addr ≠ addr + 1 := by bv_omega
  have h₂ : addr ≠ addr + 1 + 1 := by bv_omega
  have h₃ : addr + 1 ≠ addr + 1 + 1 := by bv_omega
  have htwo : addr + 2 = addr + 1 + 1 := (BitVec.add_assoc addr 1 1).symm
  simp only [htwo, State.writeBytes, State.readByte_writeByte, if_neg h₁, if_neg h₂, if_neg h₃,
    if_true]

/-- The next step fetches the bytes of the word placed. -/
theorem State.fetched_withFetchWord (nbits w : Nat) :
    [(s.withFetchWord nbits w).readByte s.pc, (s.withFetchWord nbits w).readByte (s.pc + 1),
      (s.withFetchWord nbits w).readByte (s.pc + 2)] = tableBytes nbits w :=
  s.readByte_writeBytes_three s.pc _ _ _

end PlacedInstruction

theorem decodeTableWord_eq_some_iff {nbits w : Nat} {i : Instr} :
    decodeTableWord nbits w = some i ↔ ∃ rest, decode (tableBytes nbits w) = .ok (i, rest) := by
  unfold decodeTableWord
  cases decode (tableBytes nbits w) with
  | ok r => simp [Prod.ext_iff]
  | error e => simp

/-- Settles O26: the three bytes at PC are the word's, and a step runs what they decode to. -/
theorem placedInstructionRunsNext : Obligations.PlacedInstructionRunsNext := by
  unfold Obligations.PlacedInstructionRunsNext
  intro s nbits w i h
  obtain ⟨rest, hdec⟩ := decodeTableWord_eq_some_iff.1 h
  have hstep := stepRunsTheFetchedInstruction (s.withFetchWord nbits w) rfl
  rw [State.withFetchWord_pc, State.fetched_withFetchWord, hdec] at hstep
  exact hstep

end Sys2Proof.Machine

/-! SUPPORT. ADC's overflow on the signed values of the operands, and the obligations of
spec/42_alu.md on it (R131, R133) and on the memory forms of ASL (R138). -/

namespace Sys2Proof.Machine

section SignedValue

variable (a m v : Byte) (c : Bool)

theorem getLsbD_seven_eq : v.getLsbD 7 = decide (128 ≤ v.toNat) :=
  (BitVec.msb_eq_getLsbD_last v).symm.trans (BitVec.msb_eq_decide v)

/-- A byte as a two's complement number. -/
theorem toInt_byte_eq : v.toInt = if 128 ≤ v.toNat then (v.toNat : Int) - 256 else v.toNat := by
  rw [BitVec.toInt_eq_msb_cond, BitVec.msb_eq_decide]
  simp

/-- The exact sum of ADC on two's complement numbers, the carry included. -/
def adcSignedSum : Int := a.toInt + m.toInt + (if c then 1 else 0)

/-- ADC's result is its signed sum mod 256, taken to the range of a byte. -/
theorem toInt_adcResult : (adcResult a m c).toInt = (adcSignedSum a m c).bmod 256 := by
  have hadd : adcResult a m c = a + m + BitVec.ofNat 8 c.toNat := by
    simp [adcResult, adcSum, BitVec.ofNat_add]
  have hcarry : (BitVec.ofNat 8 c.toNat).toInt = if c then 1 else 0 := by cases c <;> rfl
  rw [hadd, BitVec.toInt_add, BitVec.toInt_add, hcarry]
  exact Int.bmod_add_bmod

/-- A result with the sign of neither operand is that of a sum out of range. -/
theorem adcOverflow_iff :
    adcOverflow a m (adcResult a m c) = true ↔
      ¬(-128 ≤ adcSignedSum a m c ∧ adcSignedSum a m c ≤ 127) := by
  have ha := a.isLt
  have hm := m.isLt
  rw [adcOverflow_eq, decide_eq_true_iff, adcSignedSum, toInt_byte_eq a, toInt_byte_eq m,
    getLsbD_seven_eq, getLsbD_seven_eq, getLsbD_seven_eq, adcResult_eq, BitVec.toNat_ofNat]
  cases c <;> simp only [decide_eq_decide, ne_eq] <;> split_ifs <;> omega
end SignedValue

/-- On an effective address an instruction runs on the byte there (R93). -/
theorem exec_of_mem {i : Instr} {s : State} {ea : Word} (hea : resolve i.operand s = .mem ea) :
    exec i s = applyForm i.mnemonic (.mem ea) (s.readByte ea) s := by
  rw [exec_eq_applyForm, hea]
  rfl

/-- Settles O35: every mode of ADC gives a byte to load; the sum is out of range exactly when V is
set, and a sum in range is the result. -/
theorem adcOverflowIsSignedOverflow : Obligations.AdcOverflowIsSignedOverflow := by
  unfold Obligations.AdcOverflowIsSignedOverflow
  intro i s m hi hm
  have hexec : exec i s = addA m s := by
    rw [exec_eq_applyForm, hi, hm]
    rfl
  have hover := adcOverflow_iff s.a m s.flags.c
  refine ⟨_, hexec.trans (addA_eq s m), hover, fun hv => ?_⟩
  obtain ⟨hlo, hhi⟩ := not_not.1 (mt hover.2 (Bool.not_eq_true _ ▸ hv))
  rw [toInt_adcResult]
  exact Int.bmod_eq_of_le (by omega) (by omega)

/-- Every mode of ASL but Accumulator is a memory mode (R95). -/
theorem isMemory_of_asl {i : Instr} (hi : i.mnemonic = .asl) (hacc : i.mode ≠ .accumulator) :
    i.mode.isMemory = true := by
  have hmodes : ∀ md ∈ Mnemonic.asl.modes, md ≠ .accumulator → md.isMemory = true := by decide
  exact hmodes i.mode (hi ▸ mode_mem_modes i) hacc

/-- Settles O38: every mode of ASL but Accumulator gives an address, and ASL writes back the double
of the byte there. -/
theorem aslShiftsAMemoryByte : Obligations.AslShiftsAMemoryByte := by
  unfold Obligations.AslShiftsAMemoryByte
  refine ⟨hasForms_of_modes (by decide) (by decide), fun i s hi hacc => ?_⟩
  obtain ⟨ea, hea⟩ := exists_ea_of_isMemory s (isMemory_of_asl hi hacc)
  have hexec : exec i s = aslMem ea s := by
    rw [exec_of_mem hea, hi]
    rfl
  exact ⟨ea, _, hea, aslResult_eq _, hexec.trans (aslMem_eq s ea)⟩

end Sys2Proof.Machine

/-! SUPPORT. What the effect of a mnemonic leaves unchanged and what it does not read, each once for
the forty mnemonics, and the obligations of spec/10_state.md on the writers and readers of the
registers, the flags and PC (R22-R28, R33). -/

namespace Sys2Proof.Machine

/-- ASL A is the one instruction in mode Accumulator (R90). -/
theorem mode_eq_accumulator_iff (i : Instr) : i.mode = .accumulator ↔ i = .aslAcc := by
  obtain ⟨-, -, -, -, -, hacc⟩ := directModesResolve
  exact hacc i

/-- Accumulator is the one operand that resolves to the accumulator (R90). -/
theorem resolve_eq_acc_iff {op : Operand} {s : State} :
    resolve op s = .acc ↔ op.mode = .accumulator := by
  cases op <;> simp [resolve, Operand.mode]

theorem resolve_ne_acc {i : Instr} (s : State) (h : i ≠ .aslAcc) : resolve i.operand s ≠ .acc :=
  fun hr => h ((mode_eq_accumulator_iff i).1 (resolve_eq_acc_iff.1 hr))

section Frame

variable {m : Mnemonic} {r : Resolved} {v : Byte} {s t : State}

/-- The writers of A, X, Y and S (R22-R25); ASL writes A where it shifts the accumulator. -/
theorem applyForm_registers (h : applyForm m r v s = .next t) :
    (m ∉ [.lda, .txa, .tya, .adc, .and, .ora, .eor] → r ≠ .acc → t.a = s.a) ∧
    (m ∉ [.ldx, .tax, .tsx, .inx, .dex] → t.x = s.x) ∧
    (m ∉ [.ldy, .tay, .iny, .dey] → t.y = s.y) ∧
    (m ≠ .txs → t.sp = s.sp) := by
  cases m with
  | sta | stx | sty | asl | inc | dec | bcc | bcs | beq | bne | bmi | bpl | bvc | bvs =>
    cases r <;> cases h <;> simp
  | _ => cases h; simp

/-- R28's writers: setZN writes N, Z and U, and an instruction writes the other flags by name. -/
theorem applyForm_flags (h : applyForm m r v s = .next t) :
    (m ∉ [.lda, .ldx, .ldy, .tax, .tay, .txa, .tya, .tsx, .inc, .dec, .inx, .iny, .dex, .dey, .and,
        .ora, .eor, .asl, .adc, .bit] → t.flags.n = s.flags.n ∧ t.flags.z = s.flags.z) ∧
    (m ∉ [.lda, .ldx, .ldy, .tax, .tay, .txa, .tya, .tsx, .inc, .dec, .inx, .iny, .dex, .dey, .and,
        .ora, .eor, .asl, .adc] → t.flags.u = s.flags.u) ∧
    (m ∉ [.adc, .bit, .clv] → t.flags.v = s.flags.v) ∧
    (m ∉ [.adc, .asl, .sec, .clc] → t.flags.c = s.flags.c) ∧
    (m ∉ [.sed, .cld] → t.flags.d = s.flags.d) ∧
    (m ∉ [.sei, .cli] → t.flags.i = s.flags.i) ∧
    t.flags.b = s.flags.b := by
  cases m with
  | sta | stx | sty | asl | inc | dec | bcc | bcs | beq | bne | bmi | bpl | bvc | bvs =>
    cases r <;> cases h <;> simp
  | _ => cases h; simp

/-- A branch alone writes PC (R26). -/
theorem applyForm_pc (h : applyForm m r v s = .next t)
    (hm : m ∉ [.bcc, .bcs, .beq, .bne, .bmi, .bpl, .bvc, .bvs]) : t.pc = s.pc := by
  cases m with
  | bcc | bcs | beq | bne | bmi | bpl | bvc | bvs => simp at hm
  | sta | stx | sty | asl | inc | dec => cases r <;> cases h <;> rfl
  | _ => cases h; rfl

end Frame

/-- Settles O44, by the frame of the mnemonic's effect: ASL A alone resolves to the accumulator. -/
theorem unlistedInstructionsKeepTheRegisters :
    Obligations.UnlistedInstructionsKeepTheRegisters := by
  unfold Obligations.UnlistedInstructionsKeepTheRegisters
  intro i s t h
  rw [exec_eq_applyForm] at h
  obtain ⟨ha, hrest⟩ := applyForm_registers h
  exact ⟨fun hm hi => ha hm (resolve_ne_acc s hi), hrest⟩

/-- Settles O45, by the frame of the mnemonic's effect. -/
theorem unlistedInstructionsKeepTheFlags : Obligations.UnlistedInstructionsKeepTheFlags := by
  unfold Obligations.UnlistedInstructionsKeepTheFlags
  intro i s t h
  rw [exec_eq_applyForm] at h
  exact applyForm_flags h

/-- Settles O47, by the frame of the mnemonic's effect and that BRK alone raises a condition. -/
theorem onlyBranchesWritePc : Obligations.OnlyBranchesWritePc := by
  unfold Obligations.OnlyBranchesWritePc
  refine fun i s t h => ⟨fun hm => ?_, fun hm => exec_run h fun hi => hm (hi ▸ rfl)⟩
  rw [exec_eq_applyForm] at h
  exact applyForm_pc h hm

section Congruence

variable {i : Instr} {s s' : State}

/-- In a state where the operand resolves and loads as in another, an instruction is the same
effect. -/
theorem exec_eq_applyForm_of_resolve (hr : resolve i.operand s' = resolve i.operand s)
    (hl : load (resolve i.operand s) s' = load (resolve i.operand s) s) :
    exec i s' =
      applyForm i.mnemonic (resolve i.operand s) ((load (resolve i.operand s) s).getD 0) s' := by
  rw [exec_eq_applyForm, hr, hl]

end Congruence

section Registers

variable {m : Mnemonic} {r : Resolved} {op : Operand} (s : State) (v w : Byte)

theorem resolve_setA : resolve op (s.setA w) = resolve op s := by cases op <;> rfl

theorem resolve_setSp : resolve op (s.setSp w) = resolve op s := by cases op <;> rfl

/-- X is an index in three modes only (R83, R86, R88). -/
theorem resolve_setX (h : op.mode ∉ [.zeroPageX, .absoluteX, .indirectX]) :
    resolve op (s.setX w) = resolve op s := by
  cases op with
  | zeroPageX _ | absoluteX _ | indirectX _ => simp [Operand.mode] at h
  | _ => rfl

/-- Y is an index in three modes only (R84, R87, R89). -/
theorem resolve_setY (h : op.mode ∉ [.zeroPageY, .absoluteY, .indirectY]) :
    resolve op (s.setY w) = resolve op s := by
  cases op with
  | zeroPageY _ | absoluteY _ | indirectY _ => simp [Operand.mode] at h
  | _ => rfl

theorem load_setA (h : r ≠ .acc) : load r (s.setA w) = load r s := by
  cases r with
  | acc => exact absurd rfl h
  | _ => rfl

theorem load_setX : load r (s.setX w) = load r s := by cases r <;> rfl

theorem load_setY : load r (s.setY w) = load r s := by cases r <;> rfl

theorem load_setSp : load r (s.setSp w) = load r s := by cases r <;> rfl

/-- R22's readers of A; ASL reads it where it shifts the accumulator. -/
theorem applyForm_setA (hm : m ∉ [.sta, .tax, .tay, .adc, .and, .ora, .eor, .bit])
    (hr : r ≠ .acc) :
    applyForm m r v (s.setA w) =
      if m ∈ [.lda, .txa, .tya] then applyForm m r v s
      else onNext (fun t => t.setA w) (applyForm m r v s) := by
  cases m with
  | sta | tax | tay | adc | and | ora | eor | bit => simp at hm
  | asl =>
    cases r with
    | acc => exact absurd rfl hr
    | _ => rfl
  | stx | sty | inc | dec | bcc | bcs | beq | bne | bmi | bpl | bvc | bvs => cases r <;> rfl
  | _ => rfl

/-- R25's reader of S. -/
theorem applyForm_setSp (hm : m ≠ .tsx) :
    applyForm m r v (s.setSp w) =
      if m = .txs then applyForm m r v s else onNext (fun t => t.setSp w) (applyForm m r v s) := by
  cases m with
  | tsx => exact absurd rfl hm
  | sta | stx | sty | asl | inc | dec | bcc | bcs | beq | bne | bmi | bpl | bvc | bvs =>
    cases r <;> rfl
  | _ => rfl

/-- R23's readers of X by mnemonic. -/
theorem applyForm_setX (hm : m ∉ [.stx, .txa, .txs, .inx, .dex]) :
    applyForm m r v (s.setX w) =
      if m ∈ [.ldx, .tax, .tsx] then applyForm m r v s
      else onNext (fun t => t.setX w) (applyForm m r v s) := by
  cases m with
  | stx | txa | txs | inx | dex => simp at hm
  | sta | sty | asl | inc | dec | bcc | bcs | beq | bne | bmi | bpl | bvc | bvs =>
    cases r <;> rfl
  | _ => rfl

/-- R24's readers of Y by mnemonic. -/
theorem applyForm_setY (hm : m ∉ [.sty, .tya, .iny, .dey]) :
    applyForm m r v (s.setY w) =
      if m ∈ [.ldy, .tay] then applyForm m r v s
      else onNext (fun t => t.setY w) (applyForm m r v s) := by
  cases m with
  | sty | tya | iny | dey => simp at hm
  | sta | stx | asl | inc | dec | bcc | bcs | beq | bne | bmi | bpl | bvc | bvs =>
    cases r <;> rfl
  | _ => rfl

end Registers

/-- Settles O48: no operand resolves by A or S, and only Accumulator loads A, so the effect of the
mnemonic is taken on the same operand. -/
theorem unlistedInstructionsDoNotReadAOrS : Obligations.UnlistedInstructionsDoNotReadAOrS := by
  unfold Obligations.UnlistedInstructionsDoNotReadAOrS
  refine fun i s v => ⟨fun hm hi => ?_, fun hm => ?_⟩
  · have hr := resolve_ne_acc s hi
    rw [exec_eq_applyForm_of_resolve (resolve_setA s v) (load_setA s v hr),
      applyForm_setA s _ v hm hr, exec_eq_applyForm]
  · rw [exec_eq_applyForm_of_resolve (resolve_setSp s v) (load_setSp s v),
      applyForm_setSp s _ v hm, exec_eq_applyForm]

/-- Settles O49: an operand resolves by X or Y in the modes listed alone. -/
theorem unlistedInstructionsDoNotReadXOrY : Obligations.UnlistedInstructionsDoNotReadXOrY := by
  unfold Obligations.UnlistedInstructionsDoNotReadXOrY
  refine fun i s v => ⟨fun hm hmode => ?_, fun hm hmode => ?_⟩
  · rw [exec_eq_applyForm_of_resolve (resolve_setX s v hmode) (load_setX s v),
      applyForm_setX s _ v hm, exec_eq_applyForm]
  · rw [exec_eq_applyForm_of_resolve (resolve_setY s v hmode) (load_setY s v),
      applyForm_setY s _ v hm, exec_eq_applyForm]

section UnreadFlags

variable {m : Mnemonic} {r : Resolved} {op : Operand} (s : State) (v : Byte) (u b d i : Bool)

/-- Forget the four flags that no instruction reads. -/
def State.forgetUnreadFlags (s : State) : State := s.withUnreadFlags false false false false

theorem resolve_withUnreadFlags : resolve op (s.withUnreadFlags u b d i) = resolve op s := by
  cases op <;> rfl

theorem load_withUnreadFlags : load r (s.withUnreadFlags u b d i) = load r s := by
  cases r <;> rfl

/-- No effect reads U, B, D or I, and each that writes one of them writes a constant (R28). -/
theorem applyForm_withUnreadFlags :
    onNext State.forgetUnreadFlags (applyForm m r v (s.withUnreadFlags u b d i)) =
      onNext State.forgetUnreadFlags (applyForm m r v s) := by
  cases m with
  | sta | stx | sty | asl | inc | dec | bcc | bcs | beq | bne | bmi | bpl | bvc | bvs =>
    cases r <;> rfl
  | _ => rfl

theorem exec_withUnreadFlags (j : Instr) :
    onNext State.forgetUnreadFlags (exec j (s.withUnreadFlags u b d i)) =
      onNext State.forgetUnreadFlags (exec j s) := by
  rw [exec_eq_applyForm_of_resolve (resolve_withUnreadFlags s u b d i)
    (load_withUnreadFlags s u b d i), applyForm_withUnreadFlags, exec_eq_applyForm]

/-- The fetch reads memory and PC, which the flags leave alone. -/
theorem fetchOperand_withUnreadFlags (sh : Shape) :
    fetchOperand sh (s.withUnreadFlags u b d i) =
      ((fetchOperand sh s).1, (fetchOperand sh s).2.withUnreadFlags u b d i) := by
  cases sh <;> rfl

theorem fetchExecute_withUnreadFlags :
    onNext State.forgetUnreadFlags (fetchExecute (s.withUnreadFlags u b d i)) =
      onNext State.forgetUnreadFlags (fetchExecute s) := by
  have hfetch : (s.withUnreadFlags u b d i).readByte (s.withUnreadFlags u b d i).pc =
    s.readByte s.pc := rfl
  have hpc : (s.withUnreadFlags u b d i).setPc ((s.withUnreadFlags u b d i).pc + 1) =
    (s.setPc (s.pc + 1)).withUnreadFlags u b d i := rfl
  rw [fetchExecute_eq, fetchExecute_eq, hfetch, hpc]
  cases decodeTable (s.readByte s.pc) with
  | none => rfl
  | some sh =>
    simp only [fetchOperand_withUnreadFlags]
    exact exec_withUnreadFlags ..

end UnreadFlags

/-- Settles O50: a step fetches the same instruction whatever the four flags hold, and its effect
does not read them. -/
theorem unreadFlagsDoNotInfluenceAStep : Obligations.UnreadFlagsDoNotInfluenceAStep := by
  unfold Obligations.UnreadFlagsDoNotInfluenceAStep
  intro s u b d i
  have hmove : (s.withUnreadFlags u b d i).noMove = s.noMove := rfl
  unfold step
  rw [hmove]
  cases s.noMove with
  | some r => rfl
  | none => exact fetchExecute_withUnreadFlags s u b d i

end Sys2Proof.Machine

/-! SUPPORT. The bus accesses of an instruction against its effect, what they do to memory and how
many there are, with the obligations on the bus writes (R43, R94), on the byte that a store changes
(R47) and on the machine's invariant (R29, R30, R43). -/

namespace Sys2Proof.Machine

section Accesses

variable {m : Memory} {accs accs' : List BusAccess}

theorem Memory.afterAccesses_append :
    m.afterAccesses (accs ++ accs') = (m.afterAccesses accs).afterAccesses accs' := by
  induction accs generalizing m with
  | nil => rfl
  | cons acc accs ih =>
    cases acc with
    | read b => exact ih
    | write b v => exact ih

/-- A bus address lies inside the address space, so any accesses keep the canonical form. -/
theorem Memory.wf_afterAccesses (h : m.wf = true) : (m.afterAccesses accs).wf = true := by
  induction accs generalizing m with
  | nil => exact h
  | cons acc accs ih =>
    cases acc with
    | read b => exact ih h
    | write b v => exact ih (Memory.wf_write b.toNat v h b.isLt)

/-- Fetching operand bytes only reads. -/
theorem Memory.afterAccesses_operandAccesses (sh : Shape) (s : State) :
    m.afterAccesses (operandAccesses sh s) = m := by
  cases sh <;> rfl

theorem fetchOperand_mem (sh : Shape) (s : State) : (fetchOperand sh s).2.mem = s.mem := by
  cases sh <;> rfl

/-- Fetching a pointer only reads. -/
theorem Memory.afterAccesses_pointerAccesses (op : Operand) (s : State) :
    m.afterAccesses (pointerAccesses op s) = m := by
  cases op <;> rfl

end Accesses

section Effect

variable {i : Instr} {s t : State} {m : Mnemonic} {r : Resolved} {ea : Word} {v : Byte}

theorem instrAccesses_of_mem (hea : resolve i.operand s = .mem ea) :
    instrAccesses i s =
      pointerAccesses i.operand s ++ dataAccesses (dataAccess i.mnemonic s) ea s := by
  simp only [instrAccesses, hea]

theorem instrAccesses_of_not_mem (hr : ∀ ea, resolve i.operand s ≠ .mem ea) :
    instrAccesses i s = [] := by
  unfold instrAccesses
  cases h : resolve i.operand s with
  | mem ea => exact absurd h (hr ea)
  | _ => rfl

/-- At an effective address a mnemonic makes the data accesses of its class (R47). -/
theorem applyForm_mem_of_mem (h : applyForm m (.mem ea) (s.readByte ea) s = .next t) :
    t.mem = s.mem.afterAccesses (dataAccesses (dataAccess m s) ea s) := by
  cases m <;> cases h <;> rfl

/-- Without an effective address no mnemonic changes memory (R47). -/
theorem applyForm_mem_of_not_mem (hr : ∀ ea, r ≠ .mem ea) (h : applyForm m r v s = .next t) :
    t.mem = s.mem := by
  cases r with
  | mem ea => exact absurd rfl (hr ea)
  | _ => cases m <;> cases h <;> rfl

/-- What an instruction leaves in memory, by whether it has an effective address. -/
theorem exec_mem_cases (h : exec i s = .next t) :
    (∃ ea, resolve i.operand s = .mem ea ∧
      t.mem = s.mem.afterAccesses (dataAccesses (dataAccess i.mnemonic s) ea s)) ∨
    ((∀ ea, resolve i.operand s ≠ .mem ea) ∧ t.mem = s.mem) := by
  by_cases hmem : ∃ ea, resolve i.operand s = .mem ea
  · obtain ⟨ea, hea⟩ := hmem
    exact .inl ⟨ea, hea, applyForm_mem_of_mem (exec_of_mem hea ▸ h)⟩
  · rw [not_exists] at hmem
    exact .inr ⟨hmem, applyForm_mem_of_not_mem hmem (exec_eq_applyForm i s ▸ h)⟩

/-- An instruction changes memory by its bus writes alone. -/
theorem exec_mem (h : exec i s = .next t) : t.mem = s.mem.afterAccesses (instrAccesses i s) := by
  obtain ⟨ea, hea, hmem⟩ | ⟨hr, hmem⟩ := exec_mem_cases h
  · rw [instrAccesses_of_mem hea, Memory.afterAccesses_append,
      Memory.afterAccesses_pointerAccesses, hmem]
  · rw [instrAccesses_of_not_mem hr, hmem, Memory.afterAccesses_nil]

/-- A step changes memory by its bus writes alone: the fetch only reads. -/
theorem step_mem (h : step s = .next t) : t.mem = s.mem.afterAccesses (busAccesses s) := by
  have hs := running_of_step s h
  cases hd : decodeTable (s.readByte s.pc) with
  | none =>
    rw [step_of_unknownOpcode hs hd] at h
    cases h
    rw [busAccesses_of_unknownOpcode hs hd]
    rfl
  | some sh =>
    rw [step_of_decodeTable hs hd] at h
    rw [busAccesses_of_decodeTable hs hd, Memory.afterAccesses_read, Memory.afterAccesses_append,
      Memory.afterAccesses_operandAccesses, exec_mem h, fetchOperand_mem, State.setPc_mem]

end Effect

/-- Settles O51: bus writes keep the canonical form, and no instruction changes U or B once they
have their values. -/
theorem stepKeepsTheMachineInvariant : Obligations.StepKeepsTheMachineInvariant := by
  unfold Obligations.StepKeepsTheMachineInvariant
  rintro s t ⟨hwf, hflags⟩ h
  have hreset : s.run ≠ .unreset := by simp [running_of_step s h]
  refine ⟨?_, fun _ => step_flags_constant (hflags hreset) h⟩
  rw [step_mem h]
  exact Memory.wf_afterAccesses hwf

/-- Settles O52: the memory lists nothing and the flags are R220's. -/
theorem resetMeetsTheMachineInvariant : Obligations.ResetMeetsTheMachineInvariant := by
  unfold Obligations.ResetMeetsTheMachineInvariant
  exact ⟨State.wf_reset, fun _ => ⟨rfl, rfl⟩⟩

/-- Settles O54, by the data accesses of the instruction fetched. -/
theorem memoryChangesOnlyByBusWrites : Obligations.MemoryChangesOnlyByBusWrites := by
  unfold Obligations.MemoryChangesOnlyByBusWrites
  exact fun s t h => step_mem h

section StoredByte

variable {s t : State} {m : Mnemonic} {addr ea : Word}

theorem State.readByte_congr (h : t.mem = s.mem) (addr : Word) :
    t.readByte addr = s.readByte addr :=
  congrArg (fun mem => Memory.read mem addr.toNat) h

/-- The data accesses of any class write the effective address alone. -/
theorem read_afterAccesses_dataAccesses (d : DataAccess) (h : addr ≠ ea) :
    (s.mem.afterAccesses (dataAccesses d ea s)).read addr.toNat = s.readByte addr := by
  have hne : addr.toNat ≠ ea.toNat := fun hn => h (BitVec.eq_of_toNat_eq hn)
  cases d with
  | none | read => rfl
  | write v => exact (Memory.read_write ..).trans (if_neg hne)
  | modify f => exact (Memory.read_write ..).trans (if_neg hne)

/-- The stores and INC, DEC and ASL are all that write (R47). -/
theorem afterAccesses_dataAccess_of_not_mem (h : m ∉ [.sta, .stx, .sty, .inc, .dec, .asl]) :
    s.mem.afterAccesses (dataAccesses (dataAccess m s) ea s) = s.mem := by
  cases m with
  | sta | stx | sty | inc | dec | asl => simp at h
  | _ => rfl

end StoredByte

/-- Settles O46: an instruction makes the data accesses of its class, which write at the effective
address alone, and Accumulator has none. -/
theorem onlyTheStoredByteChanges : Obligations.OnlyTheStoredByteChanges := by
  unfold Obligations.OnlyTheStoredByteChanges
  intro i s t h
  obtain ⟨ea, hea, hmem⟩ | ⟨hr, hmem⟩ := exec_mem_cases h
  · refine ⟨fun hm => State.readByte_congr ?_, fun hacc => ?_, fun ea' hea' addr hne => ?_⟩
    · rw [hmem, afterAccesses_dataAccess_of_not_mem hm]
    · cases (resolve_eq_acc_iff.2 hacc).symm.trans hea
    · cases hea.symm.trans hea'
      rw [State.readByte, hmem]
      exact read_afterAccesses_dataAccesses _ hne
  · have hkept := State.readByte_congr hmem
    exact ⟨fun _ => hkept, fun _ => hkept, fun _ _ addr _ => hkept addr⟩

section Shape

/-- At most a number of reads, and then nothing or one write (R94). -/
inductive ReadsThenWrite : Nat → List BusAccess → Prop where
  | nil (n : Nat) : ReadsThenWrite n []
  | write (n : Nat) (addr : Word) (v : Byte) : ReadsThenWrite n [.write addr v]
  | read {n : Nat} {accs : List BusAccess} (addr : Word) (h : ReadsThenWrite n accs) :
    ReadsThenWrite (n + 1) (.read addr :: accs)

variable {n k : Nat} {accs : List BusAccess}

theorem ReadsThenWrite.exists_reads_writes (h : ReadsThenWrite n accs) :
    ∃ (reads : List Word) (writes : List BusAccess),
      accs = reads.map .read ++ writes ∧ reads.length ≤ n ∧
        (writes = [] ∨ ∃ addr v, writes = [.write addr v]) := by
  induction h with
  | nil n => exact ⟨[], [], rfl, n.zero_le, .inl rfl⟩
  | write n addr v => exact ⟨[], _, rfl, n.zero_le, .inr ⟨addr, v, rfl⟩⟩
  | read addr h ih =>
    obtain ⟨reads, writes, rfl, hlen, hwrites⟩ := ih
    exact ⟨addr :: reads, writes, rfl, Nat.succ_le_succ hlen, hwrites⟩

theorem ReadsThenWrite.mono (h : ReadsThenWrite n accs) (hle : n ≤ k) : ReadsThenWrite k accs := by
  induction h generalizing k with
  | nil n => exact .nil k
  | write n addr v => exact .write k addr v
  | read addr h ih =>
    obtain ⟨k, rfl⟩ := Nat.exists_eq_succ_of_ne_zero (Nat.ne_zero_of_lt hle)
    exact .read addr (ih (Nat.le_of_succ_le_succ hle))

theorem readsThenWrite_dataAccesses (d : DataAccess) (ea : Word) (s : State) :
    ReadsThenWrite 1 (dataAccesses d ea s) := by
  cases d with
  | none => exact .nil 1
  | read => exact .read ea (.nil 0)
  | write v => exact .write 1 ea v
  | modify f => exact .read ea (.write 0 ea _)

/-- Only a mode with one operand byte has a pointer to read. -/
theorem readsThenWrite_pointerAccesses (op : Operand) (s : State) (h : ReadsThenWrite 1 accs) :
    ReadsThenWrite (4 - op.bytes.length) (pointerAccesses op s ++ accs) := by
  cases op with
  | indirectX b | indirectY b => exact .read _ (.read _ h)
  | _ => exact h.mono (by simp [Operand.bytes])

theorem readsThenWrite_instrAccesses (i : Instr) (s : State) :
    ReadsThenWrite (4 - i.operand.bytes.length) (instrAccesses i s) := by
  by_cases hmem : ∃ ea, resolve i.operand s = .mem ea
  · obtain ⟨ea, hea⟩ := hmem
    rw [instrAccesses_of_mem hea]
    exact readsThenWrite_pointerAccesses _ s (readsThenWrite_dataAccesses _ ea s)
  · rw [instrAccesses_of_not_mem (not_exists.1 hmem)]
    exact .nil _

/-- The operand bytes that are read are those of the instruction fetched (R60). -/
theorem readsThenWrite_operandAccesses {op : Byte} {sh : Shape} (s : State)
    (hd : decodeTable op = some sh)
    (h : ReadsThenWrite (4 - (fetchOperand sh s).1.operand.bytes.length) accs) :
    ReadsThenWrite 4 (operandAccesses sh s ++ accs) := by
  have hop := opcode_of_decodeTable hd
  rw [fetchOperand_eq] at h
  cases sh with
  | noOperand i => exact h.mono (Nat.sub_le ..)
  | byteOperand f =>
    rw [(hop _).right] at h
    exact .read _ h
  | wordOperand f =>
    rw [(hop _).right] at h
    exact .read _ (.read _ h)

end Shape

/-- Settles O56: the operand bytes, the pointer and the data are at most four reads, since only a
mode with one operand byte has a pointer. -/
theorem theOneBusWriteComesLast : Obligations.TheOneBusWriteComesLast := by
  unfold Obligations.TheOneBusWriteComesLast
  intro s hs
  cases hd : decodeTable (s.readByte s.pc) with
  | none => exact ⟨[], [], busAccesses_of_unknownOpcode hs hd, by decide, .inl rfl⟩
  | some sh =>
    have hshape := readsThenWrite_operandAccesses (s.setPc (s.pc + 1)) hd
      (readsThenWrite_instrAccesses _ (fetchOperand sh (s.setPc (s.pc + 1))).2)
    obtain ⟨reads, writes, haccs, hlen, hwrites⟩ := hshape.exists_reads_writes
    refine ⟨reads, writes, ?_, hlen, hwrites⟩
    rw [busAccesses_of_decodeTable hs hd, haccs]
    rfl

end Sys2Proof.Machine

/-! SUPPORT. Memories that agree where a step reads, and the obligation on the bus reads (R94). -/

namespace Sys2Proof.Machine

section OtherMemory

variable {m m' : Memory} {accs accs' : List BusAccess} {s : State} {i : Instr} {mn : Mnemonic}
  {r : Resolved} {op : Operand} {ea : Word} {v : Byte}

/-- Two memories hold the same byte at every address that is read. -/
def Memory.AgreeOn (m m' : Memory) (accs : List BusAccess) : Prop :=
  ∀ addr : Word, .read addr ∈ accs → m.read addr.toNat = m'.read addr.toNat

theorem Memory.agreeOn_cons_read {addr : Word} :
    m.AgreeOn m' (.read addr :: accs) ↔
      m.read addr.toNat = m'.read addr.toNat ∧ m.AgreeOn m' accs := by
  simp [Memory.AgreeOn, or_imp, forall_and]

theorem Memory.agreeOn_append :
    m.AgreeOn m' (accs ++ accs') ↔ m.AgreeOn m' accs ∧ m.AgreeOn m' accs' := by
  simp [Memory.AgreeOn, or_imp, forall_and]

/-- Forget the memory. -/
def State.forgetMemory (s : State) : State := s.withMemory []

theorem State.readPointer_withMemory {p : Byte}
    (hlo : m.read (p.setWidth 16 : Word).toNat = s.mem.read (p.setWidth 16 : Word).toNat)
    (hhi : m.read ((p + 1).setWidth 16 : Word).toNat =
      s.mem.read ((p + 1).setWidth 16 : Word).toNat) :
    (s.withMemory m).readPointer p = s.readPointer p :=
  congrArg₂ wordOfBytes hlo hhi

/-- The resolver reads memory for a pointer alone (R88, R89). -/
theorem resolve_withMemory (h : m.AgreeOn s.mem (pointerAccesses op s)) :
    resolve op (s.withMemory m) = resolve op s := by
  cases op with
  | indirectX b =>
    simp only [pointerAccesses, Memory.agreeOn_cons_read] at h
    obtain ⟨hlo, hhi, -⟩ := h
    exact congrArg Resolved.mem (State.readPointer_withMemory hlo hhi)
  | indirectY b =>
    simp only [pointerAccesses, Memory.agreeOn_cons_read] at h
    obtain ⟨hlo, hhi, -⟩ := h
    exact congrArg (fun w => Resolved.mem (w + s.y.setWidth 16))
      (State.readPointer_withMemory hlo hhi)
  | _ => rfl

/-- Without an effective address there is no pointer. -/
theorem pointerAccesses_of_not_mem (hr : ∀ ea, resolve op s ≠ .mem ea) :
    pointerAccesses op s = [] := by
  cases op with
  | indirectX b | indirectY b => exact absurd rfl (hr _)
  | _ => rfl

theorem pointerAccesses_withMemory (op : Operand) (s : State) (m : Memory) :
    pointerAccesses op (s.withMemory m) = pointerAccesses op s := by
  cases op <;> rfl

/-- The class of a mnemonic's data access, and a byte it stores, are not read from memory. -/
theorem dataAccess_withMemory (mn : Mnemonic) (s : State) (m : Memory) :
    dataAccess mn (s.withMemory m) = dataAccess mn s := by
  cases mn <;> rfl

/-- The byte that is written depends on memory only where the byte there is read first. -/
theorem dataAccesses_withMemory {d : DataAccess} (h : m.AgreeOn s.mem (dataAccesses d ea s)) :
    dataAccesses d ea (s.withMemory m) = dataAccesses d ea s := by
  cases d with
  | none | read | write v => rfl
  | modify f =>
    obtain ⟨hbyte, -⟩ := Memory.agreeOn_cons_read.1 h
    exact congrArg (fun v => [BusAccess.read ea, .write ea (f v)]) hbyte

/-- Given the byte loaded, the effect of a mnemonic sees no memory. -/
theorem applyForm_withMemory (mn : Mnemonic) (r : Resolved) (v : Byte) (s : State) (m : Memory) :
    onNext State.forgetMemory (applyForm mn r v (s.withMemory m)) =
      onNext State.forgetMemory (applyForm mn r v s) := by
  cases mn with
  | sta | stx | sty | asl | inc | dec | bcc | bcs | beq | bne | bmi | bpl | bvc | bvs =>
    cases r <;> rfl
  | _ => rfl

/-- An effect whose class reads no data does not see the byte at its address (R47). -/
theorem applyForm_of_not_read (h : .read ea ∉ dataAccesses (dataAccess mn s) ea s) (v w : Byte) :
    applyForm mn (.mem ea) v s = applyForm mn (.mem ea) w s := by
  cases mn with
  | lda | ldx | ldy | adc | and | ora | eor | bit | inc | dec | asl =>
    simp [dataAccess, dataAccesses] at h
  | _ => rfl

/-- An instruction sees memory only through the accesses listed. -/
theorem instr_withMemory (h : m.AgreeOn s.mem (instrAccesses i s)) :
    instrAccesses i (s.withMemory m) = instrAccesses i s ∧
      onNext State.forgetMemory (exec i (s.withMemory m)) =
        onNext State.forgetMemory (exec i s) := by
  by_cases hmem : ∃ ea, resolve i.operand s = .mem ea
  · obtain ⟨ea, hea⟩ := hmem
    rw [instrAccesses_of_mem hea, Memory.agreeOn_append] at h
    obtain ⟨hptr, hdata⟩ := h
    have hea' := (resolve_withMemory hptr).trans hea
    constructor
    · rw [instrAccesses_of_mem hea', instrAccesses_of_mem hea, pointerAccesses_withMemory,
        dataAccess_withMemory, dataAccesses_withMemory hdata]
    · rw [exec_of_mem hea', exec_of_mem hea, applyForm_withMemory]
      by_cases hread : .read ea ∈ dataAccesses (dataAccess i.mnemonic s) ea s
      · have hbyte : (s.withMemory m).readByte ea = s.readByte ea := hdata ea hread
        rw [hbyte]
      · rw [applyForm_of_not_read hread]
  · have hr := not_exists.1 hmem
    have hptr : m.AgreeOn s.mem (pointerAccesses i.operand s) := by
      simp [pointerAccesses_of_not_mem hr, Memory.AgreeOn]
    have hr' := resolve_withMemory hptr
    constructor
    · rw [instrAccesses_of_not_mem hr, instrAccesses_of_not_mem (hr' ▸ hr)]
    · have hload : load (resolve i.operand s) (s.withMemory m) = load (resolve i.operand s) s := by
        cases h : resolve i.operand s with
        | mem ea => exact absurd h (hr ea)
        | _ => rfl
      rw [exec_eq_applyForm_of_resolve hr' hload, applyForm_withMemory, exec_eq_applyForm]

theorem operandAccesses_withMemory (sh : Shape) (s : State) (m : Memory) :
    operandAccesses sh (s.withMemory m) = operandAccesses sh s := by
  cases sh <;> rfl

theorem fetchOperand_withMemory {sh : Shape} (h : m.AgreeOn s.mem (operandAccesses sh s)) :
    fetchOperand sh (s.withMemory m) =
      ((fetchOperand sh s).1, (fetchOperand sh s).2.withMemory m) := by
  rw [fetchOperand_eq, fetchOperand_eq]
  cases sh with
  | noOperand i => rfl
  | byteOperand f =>
    simp only [operandAccesses, Memory.agreeOn_cons_read] at h
    obtain ⟨hbyte, -⟩ := h
    exact congrArg (fun b => (f b, (s.setPc (s.pc + 1)).withMemory m)) hbyte
  | wordOperand f =>
    simp only [operandAccesses, Memory.agreeOn_cons_read] at h
    obtain ⟨hlo, hhi, -⟩ := h
    exact congrArg₂ (fun lo hi => (f (wordOfBytes lo hi), (s.setPc (s.pc + 1 + 1)).withMemory m))
      hlo hhi

end OtherMemory

/-- A step in Running sees memory only through the accesses listed. -/
theorem step_withMemory_of_running {m : Memory} {s : State} (hs : s.run = .running)
    (h : m.AgreeOn s.mem (busAccesses s)) :
    busAccesses (s.withMemory m) = busAccesses s ∧
      onNext State.forgetMemory (step (s.withMemory m)) = onNext State.forgetMemory (step s) := by
  have hs' : (s.withMemory m).run = .running := hs
  cases hd : decodeTable (s.readByte s.pc) with
  | none =>
    rw [busAccesses_of_unknownOpcode hs hd] at h ⊢
    obtain ⟨hop, -⟩ := Memory.agreeOn_cons_read.1 h
    have hop' : (s.withMemory m).readByte (s.withMemory m).pc = s.readByte s.pc := hop
    have hd' := (congrArg decodeTable hop').trans hd
    rw [busAccesses_of_unknownOpcode hs' hd', step_of_unknownOpcode hs hd,
      step_of_unknownOpcode hs' hd', hop']
    exact ⟨rfl, rfl⟩
  | some sh =>
    rw [busAccesses_of_decodeTable hs hd, Memory.agreeOn_cons_read, Memory.agreeOn_append] at h
    obtain ⟨hop, hoperand, hinstr⟩ := h
    have hop' : (s.withMemory m).readByte (s.withMemory m).pc = s.readByte s.pc := hop
    have hd' := (congrArg decodeTable hop').trans hd
    have hpc : (s.withMemory m).setPc ((s.withMemory m).pc + 1) =
      (s.setPc (s.pc + 1)).withMemory m := rfl
    obtain ⟨haccs, hexec⟩ := instr_withMemory (fetchOperand_mem sh (s.setPc (s.pc + 1)) ▸ hinstr)
    rw [busAccesses_of_decodeTable hs' hd', step_of_decodeTable hs' hd', hpc,
      operandAccesses_withMemory, fetchOperand_withMemory hoperand, haccs, hexec,
      busAccesses_of_decodeTable hs hd, step_of_decodeTable hs hd]
    exact ⟨rfl, rfl⟩

/-- Without a move nothing is accessed (R206, R224). -/
theorem busAccesses_of_not_running {s : State} (hs : s.run ≠ .running) : busAccesses s = [] := by
  unfold busAccesses
  cases hr : s.run with
  | running => exact absurd hr hs
  | _ => rfl

/-- Settles O55: where there is a move every byte that is fetched, read for a pointer or loaded is
listed, and where there is none nothing is read. -/
theorem stepSeesMemoryOnlyThroughItsReads : Obligations.StepSeesMemoryOnlyThroughItsReads := by
  unfold Obligations.StepSeesMemoryOnlyThroughItsReads
  intro s m h
  by_cases hs : s.run = .running
  · exact step_withMemory_of_running hs h
  · obtain ⟨r, hr⟩ := Option.ne_none_iff_exists'.1 (mt (noMove_eq_none_iff s).1 hs)
    have hr' : (s.withMemory m).noMove = some r := hr
    have haccs' : busAccesses (s.withMemory m) = [] := busAccesses_of_not_running hs
    rw [step_of_noMove hr, step_of_noMove hr', busAccesses_of_not_running hs, haccs']
    exact ⟨rfl, rfl⟩

end Sys2Proof.Machine

/-! SUPPORT. A run step by step, and the obligations on runs (spec/70_reset_and_hazards.md R228), on
the commands of the host (spec/00_scope.md R8, spec/60_exceptions.md R206) and on the load of a
resolved operand (spec/40_addressing_modes.md R93). -/

namespace Sys2Proof.Machine

section Run

variable {k : Nat} {s t : State}

/-- A run goes on from a step that returns CONTINUE. -/
theorem runFrom_succ_of_running (h : step s = .next t) (ht : t.run = .running) :
    runFrom (k + 1) s = runFrom k t := by
  simp only [runFrom, h, ht]

/-- A run ends at a step that returns HALT or FATAL. -/
theorem runFrom_succ_of_not_running (h : step s = .next t) (ht : t.run ≠ .running) :
    runFrom (k + 1) s = .ended t := by
  cases hr : t.run with
  | running => exact absurd hr ht
  | _ => simp only [runFrom, h, hr]

/-- A run that ends takes a first step, which ends it or from which the rest of it ends. -/
theorem step_of_runFrom_succ_eq_ended (h : runFrom (k + 1) s = .ended t) :
    ∃ u, step s = .next u ∧
      ((u.run = .running ∧ runFrom k u = .ended t) ∨ (u.run ≠ .running ∧ u = t)) := by
  cases hst : step s with
  | next u =>
    refine ⟨u, rfl, ?_⟩
    by_cases hu : u.run = .running
    · exact .inl ⟨hu, (runFrom_succ_of_running hst hu).symm.trans h⟩
    · have hend := (runFrom_succ_of_not_running (k := k) hst hu).symm.trans h
      exact .inr ⟨hu, RunEnd.ended.inj hend⟩
  | fault _ | refused _ => simp [runFrom, hst] at h

end Run

/-- Settles O59, by induction on the steps allowed: the first step is the same, and ends the run or
leaves a run that ends. -/
theorem anEndedRunStaysEnded : Obligations.AnEndedRunStaysEnded := by
  unfold Obligations.AnEndedRunStaysEnded
  intro k j s t h
  induction k generalizing s with
  | zero => cases h
  | succ k ih =>
    obtain ⟨u, hst, ⟨hu, hrest⟩ | ⟨hu, rfl⟩⟩ := step_of_runFrom_succ_eq_ended h
    all_goals rw [Nat.add_right_comm]
    · obtain ⟨hmore, ht, -⟩ := ih u hrest
      exact ⟨(runFrom_succ_of_running hst hu).trans hmore, ht, running_of_step s hst⟩
    · exact ⟨runFrom_succ_of_not_running hst hu, hu, running_of_step s hst⟩

/-- BNE with displacement -2 and Z = 0 comes back to its own opcode (R174). -/
theorem step_of_branchToItself {s : State} (hs : s.run = .running)
    (hop : s.readByte s.pc = 0xD0) (hd : s.readByte (s.pc + 1) = 0xFE) (hz : s.flags.z = false) :
    step s = .next s := by
  have htable : decodeTable (s.readByte s.pc) = some (.byteOperand .bne) := by
    rw [hop]
    rfl
  have hback : relativeTarget 0xFE (s.setPc (s.pc + 1 + 1)) = s.pc := by
    rw [relativeTarget, State.setPc_pc, BitVec.add_assoc, BitVec.add_assoc]
    exact BitVec.add_zero s.pc
  have hexec : exec (.bne 0xFE) (s.setPc (s.pc + 1 + 1)) = .next s := by
    refine (branch_flag_eq s.flags.z false 0xFE _).trans ?_
    rw [if_pos hz, hback]
    rfl
  rw [step_of_decodeTable hs htable, fetchOperand_eq]
  simp only [State.setPc_pc, State.setPc_readByte, hd]
  exact hexec

/-- Settles O60, by induction on the steps: each leaves the state as it was. -/
theorem branchToItselfNeverEnds : Obligations.BranchToItselfNeverEnds := by
  unfold Obligations.BranchToItselfNeverEnds
  intro k s hs hop hd hz
  induction k with
  | zero => rfl
  | succ k ih =>
    exact (runFrom_succ_of_running (step_of_branchToItself hs hop hd hz) hs).trans ih

/-- Settles O2: RESET over a memory that lists nothing reads the vector as 0x0000. -/
theorem resetStateIsResetOverUnlistedMemory : Obligations.ResetStateIsResetOverUnlistedMemory := by
  unfold Obligations.ResetStateIsResetOverUnlistedMemory
  intro s hmem
  have hreset : s.resetAction = State.reset.resetAction := State.resetAction_congr hmem
  rw [command_reset, hreset]
  exact ⟨rfl, rfl⟩

section Commands

variable {s : State}

theorem command_hostLoad (s : State) (addr : Word) (v : Byte) :
    command (.hostLoad addr v) s =
      if s.run = .unreset then .next (s.writeByte addr v) else .refused .hostWriteAfterReset := by
  cases h : s.run <;> simp [command, h]

theorem noMove_of_halted (h : s.run = .halted) : s.noMove = some (.fault .haltedNoMove) := by
  simp only [State.noMove, h]

theorem noMove_of_faulted {op : Byte} {pc : Word} (h : s.run = .faulted op pc) :
    s.noMove = some (.fault (.faultedNoMove op pc)) := by
  simp only [State.noMove, h]

/-- A command with a move is RESET, a host write before it, or a step of a Running state. -/
theorem command_eq_next_cases {c : Command} {t : State} (h : command c s = .next t) :
    c = .reset ∨ s.run = .unreset ∨ s.run = .running := by
  cases c with
  | reset => exact .inl rfl
  | hostLoad addr v =>
    rw [command_hostLoad] at h
    by_contra hc
    rw [if_neg fun hs => hc (.inr (.inl hs))] at h
    cases h
  | step => exact .inr (.inr (running_of_step s h))

end Commands

/-- Settles O5, by the run states. -/
theorem hostWritesMemoryOnlyBeforeReset : Obligations.HostWritesMemoryOnlyBeforeReset := by
  unfold Obligations.HostWritesMemoryOnlyBeforeReset
  exact command_hostLoad

/-- Settles O4: a terminal run state has no move, and is neither Unreset nor Running. -/
theorem endedRunIsLeftOnlyByReset : Obligations.EndedRunIsLeftOnlyByReset := by
  unfold Obligations.EndedRunIsLeftOnlyByReset
  intro s
  refine ⟨fun hs => step_of_noMove (noMove_of_halted hs),
    fun op pc hs => step_of_noMove (noMove_of_faulted hs), fun hs => ⟨command_reset s, ?_⟩⟩
  intro c t h
  refine (command_eq_next_cases h).resolve_right ?_
  obtain hs | ⟨op, pc, hs⟩ := hs <;> simp [hs]

/-- Settles O9, by the cases of `Load`. -/
theorem loadReadsTheResolvedOperand : Obligations.LoadReadsTheResolvedOperand := by
  unfold Obligations.LoadReadsTheResolvedOperand
  exact fun s => ⟨fun _ => rfl, fun _ => rfl, rfl, fun _ => rfl, rfl⟩

end Sys2Proof.Machine
